-- ==== Sys2Proof/Word.lean ====
section
/-! DEFINITION. The word types of the led-blinker animation core (00_scope.md R8: CELL_W = EFF_W = 8,
WAIT_W = PC_W = 16). Every value is unsigned (R9). -/

namespace Sys2Proof

/-- A byte: a Grid cell, the current effect, a byte of the Program (00_scope.md R8, 20_memory.md R47). -/
abbrev Byte := BitVec 8

/-- A 16-bit register value: the wait counter and the program cursor (10_state.md R27, R28). -/
abbrev Word := BitVec 16

/-- Four bits: a hex digit's value, a cell's level, a pan amount (30_encoding.md R63, R67; 10_state.md R23). -/
abbrev Nibble := BitVec 4

end Sys2Proof
end

