-- ==== Sys2Proof/Syntax.lean ====
section
/-! DEFINITION. The instructions: one constructor per row of spec/opcode_table.json (30_encoding.md R61), with the
operand each carries (R66) already taken out of its encoding. -/

namespace Sys2Proof

/-- The instruction formats of 30_encoding.md R60, by the number of hex digits that follow the opcode byte. -/
inductive Format where
  /-- OP: the opcode byte alone. -/
  | op
  /-- OP_H2: two hex digits. -/
  | opH2
  /-- OP_H4: four hex digits. -/
  | opH4
deriving DecidableEq, Repr

/-- A pan direction (30_encoding.md R67). -/
inductive Dir where
  | down
  | right
  | up
  | left
deriving DecidableEq, Repr

/-- The fields of the pan control byte pan8 (30_encoding.md R67): four direction bits and the amount k. -/
structure Pan where
  down : Bool
  right : Bool
  up : Bool
  left : Bool
  amount : Nibble
deriving DecidableEq, Repr

/-- The instructions of the opcode table. -/
inductive Instr where
  /-- `e`: set the current effect to imm8 (41_grid_ops.md R100). -/
  | e (imm8 : Byte)
  /-- `s`: write the current effect into the cell idx8 (41_grid_ops.md R101). -/
  | s (idx8 : Byte)
  /-- `a`: write the current effect into every cell (41_grid_ops.md R102). -/
  | a
  /-- `p`: pan the Grid (41_grid_ops.md R103). -/
  | p (pan8 : Pan)
  /-- `w`: set the wait counter to imm16 (40_interpreter.md R86). -/
  | w (imm16 : Word)
  /-- `x`: end of sequence (40_interpreter.md R89). -/
  | x
  /-- `NUL`: end of program (40_interpreter.md R90). -/
  | nul
  /-- `INVALID`: any other opcode byte (40_interpreter.md R91); the byte is kept for the record R180 allows. -/
  | invalid (opcode : Byte)
deriving DecidableEq, Repr

end Sys2Proof
end

