-- ==== Sys2Proof/WellFormed.lean ====
section
/-! DEFINITION. Which terms of Instr are instructions of the core. Every operand value is legal (30_encoding.md R69);
the one check is that an INVALID carries a byte that names no other row (R68). -/

namespace Sys2Proof

/-- The seven opcode bytes that name a row of their own (30_encoding.md R61). -/
def namedOpcodes : List Byte := [0x65, 0x73, 0x61, 0x70, 0x77, 0x78, 0x00]

/-- An instruction the decoder can give: `invalid` holds a byte outside the seven named opcodes (30_encoding.md R68),
every other constructor takes any operand (R69). -/
def Instr.wellFormed : Instr → Bool
  | .e _ => true
  | .s _ => true
  | .a => true
  | .p _ => true
  | .w _ => true
  | .x => true
  | .nul => true
  | .invalid b => !namedOpcodes.contains b

end Sys2Proof
end

