-- ==== Sys2Proof/Decode.lean ====
section
/-! DEFINITION. The decoder (30_encoding.md R60-R68), total on any bytes, and the encoder (R72). No byte string is
rejected: a byte that names no other row decodes to INVALID by name (R62, R68). -/

namespace Sys2Proof

/-- `hex(b)` of 30_encoding.md R63: the value of one operand digit, 0 for a byte that is no hex digit. -/
def hexDigit (b : Byte) : Nibble :=
  if 0x30 ≤ b ∧ b ≤ 0x39 then (b - 0x30).setWidth 4
  else if 0x61 ≤ b ∧ b ≤ 0x66 then (b - 0x61 + 10).setWidth 4
  else if 0x41 ≤ b ∧ b ≤ 0x46 then (b - 0x41 + 10).setWidth 4
  else 0

/-- `hex2` of 30_encoding.md R64 on its two digits, the first the most significant. -/
def hex2 (d1 d0 : Byte) : Byte :=
  (hexDigit d1).setWidth 8 * 16 + (hexDigit d0).setWidth 8

/-- `hex4` of 30_encoding.md R64 on its four digits, the first the most significant. -/
def hex4 (d3 d2 d1 d0 : Byte) : Word :=
  (hexDigit d3).setWidth 16 * 4096 + (hexDigit d2).setWidth 16 * 256
    + (hexDigit d1).setWidth 16 * 16 + (hexDigit d0).setWidth 16

/-- The fields of a pan control byte (30_encoding.md R67). -/
def Pan.ofByte (v : Byte) : Pan :=
  { down := v.getLsbD 7, right := v.getLsbD 6, up := v.getLsbD 5, left := v.getLsbD 4, amount := v.extractLsb' 0 4 }

/-- The pan control byte with the given fields (30_encoding.md R67). -/
def Pan.toByte (p : Pan) : Byte :=
  (if p.down then 0x80 else 0) ||| (if p.right then 0x40 else 0) ||| (if p.up then 0x20 else 0)
    ||| (if p.left then 0x10 else 0) ||| p.amount.setWidth 8

/-- The k-th byte from PC; a byte past the end of the list reads NUL, as past the end of the Program (20_memory.md R41). -/
def byteAt (bs : List Byte) (k : Nat) : Byte := bs.getD k 0

/-- The instruction that stands at the front of `bs` (30_encoding.md R61, R62, R66): the opcode byte alone selects the
row, the operand digits are taken by position (R65). -/
def decode (bs : List Byte) : Instr :=
  let op := byteAt bs 0
  if op = 0x65 then .e (hex2 (byteAt bs 1) (byteAt bs 2))
  else if op = 0x73 then .s (hex2 (byteAt bs 1) (byteAt bs 2))
  else if op = 0x61 then .a
  else if op = 0x70 then .p (Pan.ofByte (hex2 (byteAt bs 1) (byteAt bs 2)))
  else if op = 0x77 then .w (hex4 (byteAt bs 1) (byteAt bs 2) (byteAt bs 3) (byteAt bs 4))
  else if op = 0x78 then .x
  else if op = 0x00 then .nul
  else .invalid op

/-- The format of an instruction (30_encoding.md R60, R61). -/
def Instr.format : Instr → Format
  | .e _ => .opH2
  | .s _ => .opH2
  | .a => .op
  | .p _ => .opH2
  | .w _ => .opH4
  | .x => .op
  | .nul => .op
  | .invalid _ => .op

/-- The length in bytes of an instruction of a format (30_encoding.md R60). -/
def Format.length : Format → Nat
  | .op => 1
  | .opH2 => 3
  | .opH4 => 5

/-- The length in bytes of an instruction (30_encoding.md R60). -/
def Instr.length (i : Instr) : Nat := i.format.length

/-- The lower-case ASCII hex digit of a value (30_encoding.md R63, R72). -/
def hexChar (n : Nibble) : Byte :=
  if n.toNat < 10 then 0x30 + n.setWidth 8 else 0x61 + (n.setWidth 8 - 10)

/-- The two digits of a byte, most significant first (30_encoding.md R64). -/
def digits2 (v : Byte) : List Byte := [hexChar (v.extractLsb' 4 4), hexChar (v.extractLsb' 0 4)]

/-- The four digits of a 16-bit value, most significant first (30_encoding.md R64). -/
def digits4 (v : Word) : List Byte :=
  [hexChar (v.extractLsb' 12 4), hexChar (v.extractLsb' 8 4), hexChar (v.extractLsb' 4 4), hexChar (v.extractLsb' 0 4)]

/-- The bytes of an instruction as an author writes them (30_encoding.md R60, R61, R72), operand digits in lower case. -/
def encode : Instr → List Byte
  | .e v => 0x65 :: digits2 v
  | .s v => 0x73 :: digits2 v
  | .a => [0x61]
  | .p v => 0x70 :: digits2 v.toByte
  | .w v => 0x77 :: digits4 v
  | .x => [0x78]
  | .nul => [0x00]
  | .invalid b => [b]

/-- The number of bytes an opcode-table word of `nbits` bits fills. -/
def wordByteCount (nbits : Nat) : Nat := (nbits + 7) / 8

/-- The bytes of a word numbered as spec/opcode_table.json numbers it: bit 0 is the least significant bit of the first
byte; every bit from `nbits` on is 0. At least as many bytes as the longest instruction has. -/
def wordBytes (nbits w : Nat) : List Byte :=
  (List.range (max 5 (wordByteCount nbits))).map fun k => BitVec.ofNat 8 ((w % 2 ^ nbits) >>> (8 * k))

/-- What the decoder reads from a word of the opcode table. Never `none`: decoding is total (30_encoding.md R62). -/
def decodeTableWord (nbits w : Nat) : Option Instr := some (decode (wordBytes nbits w))

end Sys2Proof
end

