-- ==== Sys2Proof/Config.lean ====
section
/-! DEFINITION. What an implementation fixes (00_scope.md R8) and the free values of the environment.
The constants of R8 whose value the source or a decision gives stand where they are used; here are the bounds of
PROG_SIZE, the parameters R8 leaves OPEN, and the uninterpreted constants (no body: nothing can be proved of their values). -/

namespace Sys2Proof

/-- The parameters that 00_scope.md R8 leaves OPEN, but for PROG_SIZE (the Program's length), GATE and LEVEL (functions,
below). They are plain data carried in State and written by no step: a claim about every state is a claim about
every choice of them (DESIGN CHOICE, log 4). -/
structure Params where
  /-- TICK_W, the width of the tick counter, at least 2 (D22). -/
  tickW : Nat
  /-- SEL_W, the width of the sequence selector, at least 1 (D22). -/
  selW : Nat
  /-- PHASE_TARGET, the phase the automaton waits for (D19). -/
  phaseTarget : BitVec 2
  /-- AUTO_WAIT_TICKS, tick transitions waited after an automaton update (D20). -/
  autoWaitTicks : Nat
  /-- N_DISCARD, draws discarded after a spark gate fires (D18). -/
  nDiscard : Nat
  /-- TICK_STRICT, whether each new tick value is the previous one plus 1 (D21). -/
  tickStrict : Bool
deriving DecidableEq, Repr

/-- The bounds 00_scope.md R8 puts on the parameters: TICK_W ≥ 2 and SEL_W ≥ 1. -/
abbrev Params.legal (p : Params) : Prop := 2 ≤ p.tickW ∧ 1 ≤ p.selW

/-- The parameters `State.reset` carries: the values 00_scope.md R8 suggests where it suggests one, and 2 ("several")
for AUTO_WAIT_TICKS and N_DISCARD, for which it suggests none. DESIGN CHOICE, unsafe (log 6). -/
def Params.suggested : Params :=
  { tickW := 8, selW := 8, phaseTarget := 0, autoWaitTicks := 2, nDiscard := 2, tickStrict := false }

namespace Config

/-- The least PROG_SIZE (00_scope.md R8). -/
def progSizeMin : Nat := 1

/-- The greatest PROG_SIZE (00_scope.md R8, 90_conflicts.md C11). -/
def progSizeMax : Nat := 65531

/-- The entropy source's answer to the n-th draw (43_automaton.md R143): a free value. -/
opaque draw : Nat → Nat

/-- GATE, whether a draw fires a spark (43_automaton.md R143, D18): an OPEN function. -/
opaque gate : Nat → Bool

/-- LEVEL, the level 0..15 a draw gives (43_automaton.md R143, D18): an OPEN function. -/
opaque level : Nat → Nibble

/-- The value SEL takes at the environment's n-th move, before reduction to SEL_W bits (10_state.md R34): a free value. -/
opaque envSel : Nat → Nat

/-- The value TICK takes at the environment's n-th move when TICK_STRICT is false, before reduction to TICK_W bits
(10_state.md R34, D21): a free value. -/
opaque envTick : Nat → Nat

/-- Whether the synchronizer counts at the environment's n-th move when TICK_STRICT is true (D21): a free value. -/
opaque envTickCounts : Nat → Bool

/-- The value PHASE takes at the environment's n-th move (60_exceptions.md R188, I9): a free value. -/
opaque envPhase : Nat → BitVec 2

/-- The value PWR_REQ takes at the environment's n-th move (10_state.md R34): a free value. -/
opaque envPwrReq : Nat → Bool

/-- The value WAKE takes at the environment's n-th move (10_state.md R34): a free value. -/
opaque envWake : Nat → Bool

end Config

end Sys2Proof
end

