-- ==== Sys2Proof/Machine/State.lean ====
section
/-! DEFINITION. The state of the core (10_state.md R20), the data its build and its environment supply, and the model's
own counters and record; the reasons a step can stop; the state after reset (R36). -/

namespace Sys2Proof.Machine

/-- An address space's contents (20_memory.md R40): (address, byte) pairs, addresses strictly rising, no byte 0x00.
An unlisted address reads 0x00: the Grid's value at reset (10_state.md R36) and the Program's value past its end
(20_memory.md R41). DEDUCED (log 20). -/
abbrev Memory := List Host.Cell

/-- The program space (20_memory.md R41): PROG_SIZE and the bytes of the Program. No step writes it (R42). -/
structure Rom where
  /-- PROG_SIZE. -/
  size : Nat
  /-- The bytes P[a]. -/
  bytes : Memory
deriving DecidableEq, Repr

/-- MODE (10_state.md R31): the display mode the build fixed. -/
inductive Mode where
  /-- Interpreter plus fade. -/
  | interp
  /-- Cellular automaton. -/
  | automaton
deriving DecidableEq, Repr

/-- CTL, the controller position (10_state.md R32), and the positions between the atomic steps of one scheduler step
that 44_scheduler.md R160 lists (`advance`, `run`, `fade`, `push`, `update`): DESIGN CHOICE, safe (log 1). -/
inductive Ctl where
  /-- TOP: at the top of the outer loop (44_scheduler.md R162). -/
  | top
  /-- HOLD_TICK: inside `wait_tick()` (44_scheduler.md R161). -/
  | holdTick
  /-- A tick transition was consumed in mode INTERP; the next step is the entry of `advance()` (R160 step 2). -/
  | advance
  /-- In the run stage of `advance()`; the next step is the instruction at PC (R160 step 3). -/
  | run
  /-- `advance()` returned and the tick's low two bits are 0; the next step is `fade_step()` (R160 step 4). -/
  | fade
  /-- After `fade_step()`; the next step is its `render_push()` (R160 step 7). -/
  | push
  /-- HOLD_PHASE: inside `wait_phase()` (44_scheduler.md R164). -/
  | holdPhase
  /-- The phase gate is passed; the next step is `automaton_update()` (R160 step 6). -/
  | update
  /-- HOLD_AUTO(n): n tick transitions still to wait after an automaton update (44_scheduler.md R165); at n = 0 the next
  step is the `render_push()` (43_automaton.md R140). -/
  | holdAuto (n : Nat)
  /-- DOWN: powered down (44_scheduler.md R167). -/
  | down
deriving DecidableEq, Repr

/-- The input lines the environment drives (10_state.md R34), at the values they carry now. -/
structure Inputs where
  /-- SEL, the sequence selector (a natural below 2^SEL_W, log 12). -/
  sel : Nat
  /-- TICK, the tick counter (a natural below 2^TICK_W, log 12). -/
  tick : Nat
  /-- PHASE, the phase counter 0..3. -/
  phase : BitVec 2
  /-- PWR_REQ, the powerdown request. -/
  pwrReq : Bool
  /-- WAKE, the wake edge. -/
  wake : Bool
deriving DecidableEq, Repr

/-- The cause of a restart (60_exceptions.md R180). -/
inductive RestartCause where
  /-- END_X, code 1. -/
  | endX
  /-- END_NUL, code 2. -/
  | endNul
  /-- INVALID, code 3, with the opcode byte. -/
  | invalid (opcode : Byte)
deriving DecidableEq, Repr

/-- What an observer may record of the core: the Grid at each `render_push()` (44_scheduler.md R168) and the restarts with
their cause and the PC of the opcode (60_exceptions.md R180). -/
inductive Event where
  | renderPush (grid : Memory)
  | restart (cause : RestartCause) (pc : Word)
deriving DecidableEq, Repr

/-- The whole machine. The first eight fields are the core's architectural state (10_state.md R20). -/
structure State where
  /-- G, the Grid (10_state.md R21). -/
  grid : Memory
  /-- EFF, the current effect (10_state.md R26). -/
  eff : Byte
  /-- WAIT, the wait counter (10_state.md R27). -/
  wait : Word
  /-- PC, the program cursor (10_state.md R28). -/
  pc : Word
  /-- SEL_L, the latched selector (10_state.md R29). -/
  selL : Nat
  /-- LAST_TICK, the tick value last consumed (10_state.md R30). -/
  lastTick : Nat
  /-- MODE (10_state.md R31). -/
  mode : Mode
  /-- CTL (10_state.md R32). -/
  ctl : Ctl
  /-- The Program, supplied by the build (20_memory.md R41, R42). -/
  rom : Rom
  /-- The OPEN parameters, supplied by the build (00_scope.md R8). -/
  params : Params
  /-- The input lines (10_state.md R34). -/
  inputs : Inputs
  /-- The model's own: how many environment moves have been made (log 9). -/
  envClock : Nat
  /-- The model's own: how many entropy draws have been consumed (log 15). -/
  drawCount : Nat
  /-- The model's own: what an observer has recorded, newest first; no rule reads it (log 16). -/
  trace : List Event
deriving DecidableEq, Repr

def State.setGrid (s : State) (g : Memory) : State := { s with grid := g }
def State.setEff (s : State) (v : Byte) : State := { s with eff := v }
def State.setWait (s : State) (v : Word) : State := { s with wait := v }
def State.setPc (s : State) (v : Word) : State := { s with pc := v }
def State.setSelL (s : State) (n : Nat) : State := { s with selL := n }
def State.setLastTick (s : State) (t : Nat) : State := { s with lastTick := t }
def State.setCtl (s : State) (c : Ctl) : State := { s with ctl := c }
def State.setInputs (s : State) (i : Inputs) : State := { s with inputs := i }
def State.setEnvClock (s : State) (n : Nat) : State := { s with envClock := n }
def State.setDrawCount (s : State) (n : Nat) : State := { s with drawCount := n }
/-- Adds one event to the observer's record. -/
def State.record (s : State) (e : Event) : State := { s with trace := e :: s.trace }

/-- The reasons the machine can stop with a fault: none. "There is no crash path within the core" (60_exceptions.md R180)
and no access of either address space can fault (20_memory.md R43, R54). Safe (log 19). -/
inductive Fault where
deriving DecidableEq, Repr

/-- The reasons the model refuses to go on. -/
inductive Refusal where
  /-- Raised by an arm of `exec` whose instruction has no meaning yet; no arm raises it now. Safe: the model stops. -/
  | notModelled (mnemonic : String)
  /-- Raised by `step` when PROG_SIZE is outside 1 .. 65531 (00_scope.md R8): such a Program is rejected before it runs
  (93_implementation_defined.md I12). Safe: the model stops (log 17). -/
  | programSize
deriving DecidableEq, Repr

/-- The machine right after reset (10_state.md R36), with the blank Program of one byte (log 5), the parameters R8 suggests
(log 6), the input lines at D23's defaults (log 7) and MODE = INTERP (log 8): the build's and the environment's part is a
DESIGN CHOICE, unsafe. -/
def State.reset : State :=
  { grid := []
    eff := 0x00
    wait := 0x0000
    pc := 0x0000
    selL := 0
    lastTick := 0
    mode := .interp
    ctl := .top
    rom := { size := 1, bytes := [] }
    params := Params.suggested
    inputs := { sel := 0, tick := 0, phase := 0, pwrReq := false, wake := false }
    envClock := 0
    drawCount := 0
    trace := [] }

end Sys2Proof.Machine
end

