-- ==== Sys2Proof/Machine/Ops.lean ====
section
/-! DEFINITION. The shared operations: the two address spaces (20_memory.md), the selection scan (40_interpreter.md R84),
the end of an advance call, the restart (60_exceptions.md R181, the core's only trap entry), the push (R189), reset
(70_reset_and_hazards.md R200) and powerdown (44_scheduler.md R167). -/

namespace Sys2Proof.Machine

/-! ### Memory in canonical form -/

/-- The canonical form: addresses strictly rising, and no entry equal to what an unlisted address reads as. -/
abbrev Memory.wf (m : Memory) : Prop :=
  m.Pairwise (fun c d => c.1 < d.1) ∧ ∀ c ∈ m, c.2 ≠ 0

/-- What an unlisted address reads as (10_state.md R36 for the Grid, 20_memory.md R41 for the Program). -/
abbrev Memory.unlisted : Byte := 0x00

/-- The byte at an address. -/
def Memory.read : Memory → Nat → Byte
  | [], _ => Memory.unlisted
  | c :: m, a => if a = c.1 then c.2 else Memory.read m a

/-- The memory without any entry for `a`. -/
def Memory.erase (m : Memory) (a : Nat) : Memory := m.filter fun c => c.1 != a

/-- The memory with an entry for `a` put before the first greater address. -/
def Memory.insert : Memory → Nat → Byte → Memory
  | [], a, v => [(a, v)]
  | c :: m, a, v => if a < c.1 then (a, v) :: c :: m else c :: Memory.insert m a v

/-- The memory with the byte at `a` replaced; writing what an unlisted address reads as removes the entry. -/
def Memory.write (m : Memory) (a : Nat) (v : Byte) : Memory :=
  if v = Memory.unlisted then m.erase a else (m.erase a).insert a v

/-- The memory of `n` bytes whose byte at each `a < n` is `f a`. -/
def Memory.tabulate (n : Nat) (f : Nat → Byte) : Memory :=
  (List.range n).filterMap fun a => if f a = Memory.unlisted then none else some (a, f a)

/-- Writes the bytes of a list at rising addresses from `a`. -/
def Memory.writeList : Memory → Nat → List Byte → Memory
  | m, _, [] => m
  | m, a, b :: bs => Memory.writeList (m.write a b) (a + 1) bs

/-! ### The grid space -/

/-- GRID_CELLS, the number of Grid cells (00_scope.md R8, 10_state.md R21). -/
abbrev gridCells : Nat := 256

/-- The number of columns, so that a cell's index is row·16 + column (10_state.md R21). -/
abbrev gridCols : Nat := 16

/-- The Grid whose cell at each index i ≤ 255 is `f i`. -/
def gridOf (f : Nat → Byte) : Memory := Memory.tabulate gridCells f

/-- The Grid with every cell 0x00 (10_state.md R36; 44_scheduler.md R167). -/
abbrev blankGrid : Memory := []

/-- `G[i]` (20_memory.md R43); every 8-bit index is in range. -/
def State.cell (s : State) (i : Byte) : Byte := s.grid.read i.toNat

/-- `G[i] <- v` (20_memory.md R43). -/
def State.writeCell (s : State) (i : Byte) (v : Byte) : State := s.setGrid (s.grid.write i.toNat v)

/-! ### The program space -/

/-- `ROM(a)` of 20_memory.md R41: total, 0x00 at and past PROG_SIZE. -/
def Rom.read (r : Rom) (a : Nat) : Byte := if a < r.size then r.bytes.read a else 0x00

/-- PROG_SIZE is within its bounds (00_scope.md R8). -/
abbrev Rom.legalSize (r : Rom) : Prop := Config.progSizeMin ≤ r.size ∧ r.size ≤ Config.progSizeMax

/-- The bytes an instruction at PC may have: `ROM(PC)` .. `ROM(PC+4)`, offsets exact on naturals (30_encoding.md R62, R64). -/
def State.fetchBytes (s : State) : List Byte := (List.range 5).map fun k => s.rom.read (s.pc.toNat + k)

/-- The instruction at PC (30_encoding.md R62). -/
def State.fetch (s : State) : Instr := decode s.fetchBytes

/-! ### Sequence selection -/

/-- The loop of `select` (40_interpreter.md R84) from offset `a` with `left` delimiters still to count: the offset it ends
at. At most `fuel` bytes are looked at; the fuel `select` gives never runs out, since `ROM` reads 0x00 at PROG_SIZE. -/
def Rom.scan (r : Rom) : (fuel : Nat) → (a left : Nat) → Nat
  | _, a, 0 => a
  | 0, _, _ + 1 => 0
  | fuel + 1, a, left + 1 =>
    if r.read a = 0x00 then 0
    else if r.read a = 0x78 then Rom.scan r fuel (a + 1) left
    else Rom.scan r fuel (a + 1) (left + 1)

/-- The offset at which sequence `n` starts (40_interpreter.md R84, R85). -/
def Rom.sequenceStart (r : Rom) (n : Nat) : Nat := r.scan (r.size + 1) 0 n

/-- `select(n)` (40_interpreter.md R84): PC, WAIT and SEL_L are written, EFF and the Grid are not (D30). -/
def State.select (s : State) (n : Nat) : State :=
  ((s.setPc (BitVec.ofNat 16 (s.rom.sequenceStart n))).setWait 0x0000).setSelL n

/-! ### The end of an advance call and the restart -/

/-- `advance()` returns to `interp_step(t)` (44_scheduler.md R163): `fade_step()` is next when t[1:0] = 0, else the top of
the loop. The t that `wait_tick()` returned is LAST_TICK, which nothing writes until the next `wait_tick()`:
DEDUCED, safe (log 3). -/
def State.returnFromAdvance (s : State) : State :=
  s.setCtl (if s.lastTick % 4 = 0 then .fade else .top)

/-- The code of a restart's cause (60_exceptions.md R180). -/
def RestartCause.code : RestartCause → Nat
  | .endX => 1
  | .endNul => 2
  | .invalid _ => 3

/-- `restart(cause, n)` (40_interpreter.md R88), the core's trap entry (60_exceptions.md R181): nothing is saved; `select(n)`
with the n sampled at the entry of the advance call, then the call returns. In the run stage SEL_L holds that n (R81):
DEDUCED, safe (log 2). The record is the observer's (R180, log 16). There is no return-from-trap instruction (R182). -/
def State.restart (s : State) (cause : RestartCause) : State :=
  ((s.record (.restart cause s.pc)).select s.selL).returnFromAdvance

/-! ### Output, reset, powerdown -/

/-- `render_push()` (60_exceptions.md R189): an event that carries the Grid; no core state is written. -/
def State.renderPush (s : State) : State := s.record (.renderPush s.grid)

/-- The brightness the render driver shows for a cell: bits [3:0] (10_state.md R22, 60_exceptions.md R189, D28). -/
def State.brightness (s : State) (i : Byte) : Nibble := (s.cell i).extractLsb' 0 4

/-- Reset of the core (70_reset_and_hazards.md R200, 10_state.md R36): LAST_TICK takes TICK, MODE keeps the build's value;
the build's data, the environment's lines and the observer's record are no state of the core (log 23). -/
def State.coreReset (s : State) : State :=
  { s with
    grid := blankGrid
    eff := 0x00
    wait := 0x0000
    pc := 0x0000
    selL := 0
    lastTick := s.inputs.tick
    ctl := .top }

/-- `powerdown()` (44_scheduler.md R167): the Grid is blanked, no push, CTL <- DOWN. -/
def State.powerdown (s : State) : State := (s.setGrid blankGrid).setCtl .down

end Sys2Proof.Machine
end

