-- ==== Sys2Proof/Machine/Operands.lean ====
section
/-! DEFINITION. What an instruction's operand and format mean to the machine: the fall-through of PC (30_encoding.md R60),
the direction bits and the amount of a pan byte (R67), the order in which directions apply (00_scope.md R8). -/

namespace Sys2Proof.Machine

/-- PC <- PC + length, the fall-through of an instruction that does not restart (30_encoding.md R60). PC never wraps in a
reachable state (40_interpreter.md R94); elsewhere the sum is taken mod 2^16 (log 18). -/
def State.advancePc (s : State) (f : Format) : State := s.setPc (s.pc + BitVec.ofNat 16 f.length)

/-- Whether a pan byte's bit for a direction is set (30_encoding.md R67). -/
def panHas (v : Pan) : Dir → Bool
  | .down => v.down
  | .right => v.right
  | .up => v.up
  | .left => v.left

/-- The amount k of a pan byte (30_encoding.md R67). -/
def panAmount (v : Pan) : Nat := v.amount.toNat

/-- PAN_ORDER, the order in which the directions apply (00_scope.md R8, D13). -/
def panOrder : List Dir := [.down, .right, .up, .left]

/-- PAN_VSTEP, cells per unit of a vertical shift (00_scope.md R8, D12). -/
abbrev panVStep : Nat := 16

end Sys2Proof.Machine
end

