-- ==== Sys2Proof/Machine/ControlInstr.lean ====
section
/-! DEFINITION. The meanings of the control instructions `w`, `x`, NUL and INVALID (40_interpreter.md R86-R91). -/

namespace Sys2Proof.Machine

/-- `w` (40_interpreter.md R86, R87): WAIT <- imm16; a nonzero WAIT ends the advance call, `w0000` falls through
(90_conflicts.md C4). -/
def execW (imm16 : Word) (s : State) : Host.Outcome State Fault Refusal :=
  let s' := (s.setWait imm16).advancePc .opH4
  .next (if imm16 = 0x0000 then s' else s'.returnFromAdvance)

/-- `x` (40_interpreter.md R89): restart(END_X, n). -/
def execX (s : State) : Host.Outcome State Fault Refusal := .next (s.restart .endX)

/-- NUL (40_interpreter.md R90): restart(END_NUL, n). -/
def execNul (s : State) : Host.Outcome State Fault Refusal := .next (s.restart .endNul)

/-- INVALID (40_interpreter.md R91): restart(INVALID, n). -/
def execInvalid (opcode : Byte) (s : State) : Host.Outcome State Fault Refusal :=
  .next (s.restart (.invalid opcode))

end Sys2Proof.Machine
end

