-- ==== Sys2Proof/Machine/Pan.lean ====
section
/-! DEFINITION. The shifts of the Grid that `p` performs (41_grid_ops.md R103-R107): byte copies from the snapshot `g`;
a cell no copy writes keeps its value (D11). -/

namespace Sys2Proof.Machine

/-- `shift_LEFT(S, k)`, row-local, toward column 0 (41_grid_ops.md R104). -/
def shiftLeft (g : Memory) (k : Nat) : Memory :=
  gridOf fun i => if i % gridCols + k ≤ 15 then g.read (i + k) else g.read i

/-- `shift_RIGHT(S, k)`, row-local, toward column 15 (41_grid_ops.md R105). -/
def shiftRight (g : Memory) (k : Nat) : Memory :=
  gridOf fun i => if k ≤ i % gridCols then g.read (i - k) else g.read i

/-- `shift_UP(S, k)`, toward row 0 (41_grid_ops.md R106). -/
def shiftUp (g : Memory) (k : Nat) : Memory :=
  gridOf fun i => if i + panVStep * k ≤ 255 then g.read (i + panVStep * k) else g.read i

/-- `shift_DOWN(S, k)`, toward row 15 (41_grid_ops.md R107). -/
def shiftDown (g : Memory) (k : Nat) : Memory :=
  gridOf fun i => if panVStep * k ≤ i then g.read (i - panVStep * k) else g.read i

/-- `shift_d(S, k)` (41_grid_ops.md R103). -/
def shift (d : Dir) (g : Memory) (k : Nat) : Memory :=
  match d with
  | .down => shiftDown g k
  | .right => shiftRight g k
  | .up => shiftUp g k
  | .left => shiftLeft g k

/-- One turn of the loop of `pan` (41_grid_ops.md R103): the snapshot is the Grid as it stands before this direction (D13). -/
def panDir (v : Pan) (g : Memory) (d : Dir) : Memory :=
  if panHas v d then shift d g (panAmount v) else g

/-- `pan(v)` (41_grid_ops.md R103): the directions one after another in PAN_ORDER. -/
def pan (v : Pan) (g : Memory) : Memory := panOrder.foldl (panDir v) g

end Sys2Proof.Machine
end

