-- ==== Sys2Proof/Machine/GridInstr.lean ====
section
/-! DEFINITION. The meanings of the Grid instructions `e`, `s`, `a`, `p` (41_grid_ops.md R100-R103). All four fall through:
the run stage goes on with the next instruction (40_interpreter.md R83). None raises anything (60_exceptions.md R180). -/

namespace Sys2Proof.Machine

/-- `e` (41_grid_ops.md R100): EFF <- imm8. -/
def execE (imm8 : Byte) (s : State) : Host.Outcome State Fault Refusal :=
  .next ((s.setEff imm8).advancePc .opH2)

/-- `s` (41_grid_ops.md R101): G[idx8] <- EFF, the whole byte. -/
def execS (idx8 : Byte) (s : State) : Host.Outcome State Fault Refusal :=
  .next ((s.writeCell idx8 s.eff).advancePc .opH2)

/-- `a` (41_grid_ops.md R102): every cell <- EFF, the whole byte. -/
def execA (s : State) : Host.Outcome State Fault Refusal :=
  .next ((s.setGrid (gridOf fun _ => s.eff)).advancePc .op)

/-- `p` (41_grid_ops.md R103): pan the Grid. -/
def execP (pan8 : Pan) (s : State) : Host.Outcome State Fault Refusal :=
  .next ((s.setGrid (pan pan8 s.grid)).advancePc .opH2)

end Sys2Proof.Machine
end

