-- ==== Sys2Proof/Machine/Dispatch.lean ====
section
/-! DEFINITION. The dispatch: one arm per constructor of Instr, one instruction of the run stage (40_interpreter.md R83). -/

namespace Sys2Proof.Machine

def exec (i : Instr) (s : State) : Host.Outcome State Fault Refusal :=
  match i with
  | .e imm8 => Sys2Proof.Machine.execE imm8 s
  | .s idx8 => Sys2Proof.Machine.execS idx8 s
  | .a => Sys2Proof.Machine.execA s
  | .p pan8 => Sys2Proof.Machine.execP pan8 s
  | .w imm16 => Sys2Proof.Machine.execW imm16 s
  | .x => Sys2Proof.Machine.execX s
  | .nul => Sys2Proof.Machine.execNul s
  | .invalid opcode => Sys2Proof.Machine.execInvalid opcode s

end Sys2Proof.Machine
end

