-- ==== Sys2Proof/Machine/Environment.lean ====
section
/-! DEFINITION. The environment's moves (00_scope.md R7, 44_scheduler.md R160): what the input lines may carry next. Every
value is free but for what the spec says of its writer. -/

namespace Sys2Proof.Machine

/-- Whether the core is between invocations of its step functions, where alone SEL may change (20_memory.md R50):
DEDUCED, safe (log 11). -/
def Ctl.betweenCalls : Ctl → Bool
  | .top => true
  | .holdTick => true
  | .advance => true
  | .run => false
  | .fade => false
  | .push => false
  | .holdPhase => false
  | .update => false
  | .holdAuto _ => false
  | .down => true

/-- TICK after the n-th move (44_scheduler.md R161, D21): any value of TICK_W bits, or, with TICK_STRICT, the value
consumed last plus 1 once the synchronizer has counted. -/
def nextTick (p : Params) (lastTick tick n : Nat) : Nat :=
  if p.tickStrict then
    (if Config.envTickCounts n then (lastTick + 1) % 2 ^ p.tickW else tick)
  else Config.envTick n % 2 ^ p.tickW

/-- The input lines after the n-th move. While the core is down the synchronizer is stopped (44_scheduler.md R167,
60_exceptions.md R185): TICK and PHASE keep their values (log 14). -/
def nextInputs (p : Params) (c : Ctl) (lastTick n : Nat) (i : Inputs) : Inputs :=
  { sel := if c.betweenCalls then Config.envSel n % 2 ^ p.selW else i.sel
    tick := if c = .down then i.tick else nextTick p lastTick i.tick n
    phase := if c = .down then i.phase else Config.envPhase n
    pwrReq := Config.envPwrReq n
    wake := Config.envWake n }

/-- One move of the environment: the input lines and the model's clock change, nothing else (10_state.md R38). -/
def State.environment (s : State) : State :=
  (s.setInputs (nextInputs s.params s.ctl s.lastTick s.envClock s.inputs)).setEnvClock (s.envClock + 1)

end Sys2Proof.Machine
end

