-- ==== Sys2Proof/Machine/Placement.lean ====
section
/-! DEFINITION. Where the fetch takes an instruction's bytes from: the Program at PC, while the core is in the run stage
(40_interpreter.md R83). Used by `State.withFetchWord` alone; it stands for the build that supplies the Program. -/

namespace Sys2Proof.Machine

/-- The Program with the bytes of an opcode-table word at offset `a`, and PROG_SIZE raised to take the row's bytes in;
the bytes after them, up to the longest instruction, are 0x00. -/
def Rom.place (r : Rom) (a nbits w : Nat) : Rom :=
  { size := max r.size (a + wordByteCount nbits), bytes := r.bytes.writeList a (wordBytes nbits w) }

/-- The word's bytes at PC, MODE = INTERP and CTL in the run stage (log 26). -/
def placeWord (s : State) (nbits w : Nat) : State :=
  { s with rom := s.rom.place s.pc.toNat nbits w, mode := .interp, ctl := .run }

end Sys2Proof.Machine
end

