-- ==== Sys2Proof/Machine/Automaton.lean ====
section
/-! DEFINITION. `automaton_update()` (43_automaton.md R141-R145): bottom decay, fall, sparks, in this order and in place
(R147). Cells are whole unsigned bytes (R145, D16). -/

namespace Sys2Proof.Machine

/-- The larger of two bytes (00_scope.md R9). -/
def byteMax (a b : Byte) : Byte := if a ≤ b then b else a

/-- One turn of the decay loop (43_automaton.md R141). -/
def decayCell (g : Memory) (i : Nat) : Memory :=
  if g.read i = 0 then g else g.write i (g.read i - 1)

/-- Step 1, bottom-row decay: i = 240 .. 255 (43_automaton.md R141). -/
def decayBottom (g : Memory) : Memory := (List.range' 240 16).foldl decayCell g

/-- One turn of the fall loop (43_automaton.md R142): the cell below takes the pre-decrement value if greater. -/
def fallCell (g : Memory) (i : Nat) : Memory :=
  let v := g.read i
  if v = 0 then g
  else
    let g' := g.write i (v - 1)
    g'.write (i + gridCols) (byteMax (g'.read (i + gridCols)) v)

/-- The fall loop from cell n − 1 down to cell 0. -/
def fallBelow : (n : Nat) → Memory → Memory
  | 0, g => g
  | n + 1, g => fallBelow n (fallCell g n)

/-- Step 2, fall propagation: i from 239 down to 0 (43_automaton.md R142, D17). -/
def fall (g : Memory) : Memory := fallBelow 240 g

/-- The draws of one column from the k-th on (43_automaton.md R144): a gate draw; if it fires, N_DISCARD draws are
discarded and one gives the level. Answers the spark, if any, and the index of the next draw. -/
def drawColumn (nDiscard k : Nat) : Option Nibble × Nat :=
  if Config.gate (Config.draw k) then
    (some (Config.level (Config.draw (k + 1 + nDiscard))), k + 2 + nDiscard)
  else (none, k + 1)

/-- The draws of `cols` columns in order: R143's spark vector and the index of the next draw. -/
def drawSparks (nDiscard : Nat) : (cols k : Nat) → List (Option Nibble) × Nat
  | 0, k => ([], k)
  | cols + 1, k =>
    let c := drawColumn nDiscard k
    let rest := drawSparks nDiscard cols c.2
    (c.1 :: rest.1, rest.2)

/-- Step 3, spark injection into the top row from column `c` on: a spark overwrites its cell (43_automaton.md R144). -/
def injectSparks : (c : Nat) → List (Option Nibble) → Memory → Memory
  | _, [], g => g
  | c, none :: sparks, g => injectSparks (c + 1) sparks g
  | c, some l :: sparks, g => injectSparks (c + 1) sparks (g.write c (l.setWidth 8))

/-- The three steps of one update on the Grid, for a given spark vector (43_automaton.md R143, R147). -/
def updateGrid (sparks : List (Option Nibble)) (g : Memory) : Memory :=
  injectSparks 0 sparks (fall (decayBottom g))

/-- `automaton_update()` (44_scheduler.md R160 step 6), after which AUTO_WAIT_TICKS transitions are waited (R165). -/
def State.automatonUpdate (s : State) : State :=
  let d := drawSparks s.params.nDiscard 16 s.drawCount
  ((s.setGrid (updateGrid d.1 s.grid)).setDrawCount d.2).setCtl (.holdAuto s.params.autoWaitTicks)

end Sys2Proof.Machine
end

