-- ==== Sys2Proof/Machine/Flags.lean ====
section
/-! DEFINITION. The fields of a cell's byte (10_state.md R23) and the one place the core computes them: `fade_cell`
(42_fade.md R122, R123). The core has no status flags (10_state.md R33). -/

namespace Sys2Proof.Machine

/-- BOUNCE, bit 6 (10_state.md R23). -/
def cellBounce (c : Byte) : Bool := c.getLsbD 6

/-- DIR, bit 5, set = increasing (10_state.md R23). -/
def cellDir (c : Byte) : Bool := c.getLsbD 5

/-- AUTO, bit 4 (10_state.md R23, 90_conflicts.md C1). -/
def cellAuto (c : Byte) : Bool := c.getLsbD 4

/-- LEVEL, bits [3:0] (10_state.md R23). -/
def cellLevel (c : Byte) : Nibble := c.extractLsb' 0 4

/-- The byte with LEVEL replaced. -/
def cellWithLevel (c : Byte) (l : Nibble) : Byte := (c &&& 0xF0) ||| l.setWidth 8

/-- The byte with DIR set or cleared. -/
def cellWithDir (c : Byte) (b : Bool) : Byte := if b then c ||| 0x20 else c &&& 0xDF

/-- The byte with AUTO cleared: a stopped cell. -/
def cellStopped (c : Byte) : Byte := c &&& 0xEF

/-- `fade_cell` for an increasing cell (42_fade.md R122). -/
def fadeIncreasing (c : Byte) : Byte :=
  if cellLevel c < 15 then cellWithLevel c (cellLevel c + 1)
  else if cellBounce c then cellWithDir c false
  else cellStopped c

/-- `fade_cell` for a decreasing cell (42_fade.md R123). -/
def fadeDecreasing (c : Byte) : Byte :=
  if 0 < cellLevel c then cellWithLevel c (cellLevel c - 1)
  else if cellBounce c then cellWithDir c true
  else cellStopped c

/-- `fade_cell` (42_fade.md R122, R123). -/
def fadeCell (c : Byte) : Byte := if cellDir c then fadeIncreasing c else fadeDecreasing c

end Sys2Proof.Machine
end

