-- ==== Sys2Proof/Machine/Fade.lean ====
section
/-! DEFINITION. `fade_step()` (42_fade.md R120, R121). -/

namespace Sys2Proof.Machine

/-- `fade_step()` on the Grid: every autonomous cell by `fade_cell`, the others untouched (42_fade.md R121, R126). -/
def fadeGrid (g : Memory) : Memory :=
  gridOf fun i => if cellAuto (g.read i) then fadeCell (g.read i) else g.read i

/-- The `fade_step()` of a scheduler step (44_scheduler.md R163): it reads and writes only the Grid; the push is next. -/
def State.fadeStep (s : State) : State := (s.setGrid (fadeGrid s.grid)).setCtl .push

end Sys2Proof.Machine
end

