-- ==== Sys2Proof/Machine/Scheduler.lean ====
section
/-! DEFINITION. The scheduler's atomic steps (44_scheduler.md R160-R167), one definition per controller position but `run`.
A hold keeps the core's state; the environment's move lifts it (log 10). -/

namespace Sys2Proof.Machine

/-- `wait_tick()` of the outer loop (44_scheduler.md R161, R162): while TICK = LAST_TICK the core holds; else it consumes the
transition and enters the step function MODE selects. -/
def State.waitTick (s : State) : State :=
  if s.inputs.tick = s.lastTick then s.setCtl .holdTick
  else
    (s.setLastTick s.inputs.tick).setCtl
      (match s.mode with
       | .interp => .advance
       | .automaton => .holdPhase)

/-- The top of the outer loop (44_scheduler.md R162): a powerdown request is taken before waiting for the tick
(60_exceptions.md R184). -/
def State.topStep (s : State) : State := if s.inputs.pwrReq then s.powerdown else s.waitTick

/-- The sequence switch of `advance()` (40_interpreter.md R81). -/
def State.sequenceSwitch (s : State) : State :=
  if s.inputs.sel = s.selL then s else s.select s.inputs.sel

/-- WAIT_HALT, the halt sentinel (00_scope.md R8, 10_state.md R27). -/
abbrev waitHalt : Word := 0xFFFF

/-- The wait stage of `advance()` (40_interpreter.md R82): halted, still waiting, or on to the run stage. -/
def State.waitStage (s : State) : State :=
  if s.wait = 0x0000 then s.setCtl .run
  else if s.wait = waitHalt then s.returnFromAdvance
  else if s.wait - 1 = 0x0000 then (s.setWait (s.wait - 1)).setCtl .run
  else (s.setWait (s.wait - 1)).returnFromAdvance

/-- The entry of an advance call (44_scheduler.md R160 step 2). -/
def State.advanceEntry (s : State) : State := s.sequenceSwitch.waitStage

/-- A render push that ends a scheduler step (44_scheduler.md R163, 43_automaton.md R140). -/
def State.pushStep (s : State) : State := s.renderPush.setCtl .top

/-- `wait_phase(PHASE_TARGET)` (44_scheduler.md R164, 43_automaton.md R140). -/
def State.waitPhase (s : State) : State :=
  if s.inputs.phase = s.params.phaseTarget then s.setCtl .update else s

/-- The throttle of `automaton_step()` with n transitions left (43_automaton.md R140, 44_scheduler.md R161, R165): hold,
consume one, or, when none is left, push. -/
def State.autoWait (s : State) (n : Nat) : State :=
  match n with
  | 0 => s.pushStep
  | m + 1 =>
    if s.inputs.tick = s.lastTick then s
    else (s.setLastTick s.inputs.tick).setCtl (.holdAuto m)

/-- Powered down: no step until WAKE, which resets the core (44_scheduler.md R167). -/
def State.downStep (s : State) : State := if s.inputs.wake then s.coreReset else s

end Sys2Proof.Machine
end

