-- ==== Sys2Proof/Machine/Step.lean ====
section
/-! DEFINITION. One step of the machine: one atomic step of the core (44_scheduler.md R160) and, after every step but an
instruction of the run stage, one move of the environment (log 9). -/

namespace Sys2Proof.Machine

/-- One step. A Program of illegal size is rejected before it runs (93_implementation_defined.md I12, log 17). -/
def step (s : State) : Host.Outcome State Fault Refusal :=
  if s.rom.legalSize then
    match s.ctl with
    | .top => .next s.topStep.environment
    | .holdTick => .next s.waitTick.environment
    | .advance => .next s.advanceEntry.environment
    | .run => exec s.fetch s
    | .fade => .next s.fadeStep.environment
    | .push => .next s.pushStep.environment
    | .holdPhase => .next s.waitPhase.environment
    | .update => .next s.automatonUpdate.environment
    | .holdAuto n => .next (s.autoWait n).environment
    | .down => .next s.downStep.environment
  else .refused .programSize

/-- `s` with an opcode-table word placed at PC and the core in the run stage of mode INTERP, so that the next step fetches
and runs it (log 26). -/
def State.withFetchWord (s : State) (nbits w : Nat) : State := placeWord s nbits w

end Sys2Proof.Machine
end

