-- ==== Sys2Proof/Safety.lean ====
section
/-! DEFINITION. What a safe run is: the invariant every reachable state has, what an observer sees (44_scheduler.md R168),
and the well-formed Programs (30_encoding.md R71). -/

namespace Sys2Proof.Machine

/-- The controller positions each MODE can be in (44_scheduler.md R162, R166), HOLD_AUTO within its bound (10_state.md R32). -/
def Ctl.legal (m : Mode) (autoWaitTicks : Nat) : Ctl → Bool
  | .top => true
  | .holdTick => true
  | .advance => m == .interp
  | .run => m == .interp
  | .fade => m == .interp
  | .push => m == .interp
  | .holdPhase => m == .automaton
  | .update => m == .automaton
  | .holdAuto n => m == .automaton && decide (n ≤ autoWaitTicks)
  | .down => true

/-- The invariant of the machine: it holds at `State.reset` and every step keeps it. -/
structure Inv (s : State) : Prop where
  /-- The Grid is in canonical form. -/
  gridWf : s.grid.wf
  /-- The Grid has no cell but G[0..255] (20_memory.md R43). -/
  gridBound : ∀ c ∈ s.grid, c.1 < gridCells
  /-- PROG_SIZE is within its bounds (00_scope.md R8). -/
  romSize : s.rom.legalSize
  /-- The Program is in canonical form. -/
  romWf : s.rom.bytes.wf
  /-- The Program lies below PROG_SIZE (20_memory.md R41). -/
  romBound : ∀ c ∈ s.rom.bytes, c.1 < s.rom.size
  /-- The parameters are within their bounds (00_scope.md R8). -/
  paramsLegal : s.params.legal
  /-- SEL fits SEL_W bits (10_state.md R34). -/
  selFits : s.inputs.sel < 2 ^ s.params.selW
  /-- SEL_L fits SEL_W bits (10_state.md R29). -/
  selLFits : s.selL < 2 ^ s.params.selW
  /-- TICK fits TICK_W bits (60_exceptions.md R188). -/
  tickFits : s.inputs.tick < 2 ^ s.params.tickW
  /-- LAST_TICK fits TICK_W bits (10_state.md R30). -/
  lastTickFits : s.lastTick < 2 ^ s.params.tickW
  /-- With TICK_STRICT the line is at the value consumed last or at the next one: how far it may run ahead is the
  model's choice (44_scheduler.md R161, D21; log 13). -/
  tickStrict : s.params.tickStrict = true →
    s.inputs.tick = s.lastTick ∨ s.inputs.tick = (s.lastTick + 1) % 2 ^ s.params.tickW
  /-- The controller is at a position of the MODE (44_scheduler.md R166; the positions: log 1). -/
  ctlLegal : s.ctl.legal s.mode s.params.autoWaitTicks = true
  /-- The range of PC (40_interpreter.md R94). -/
  pcBound : s.pc.toNat ≤ s.rom.size + 4
  /-- In the run stage nothing is waited for (40_interpreter.md R82). -/
  runWait : s.ctl = .run → s.wait = 0x0000
  /-- In the run stage SEL_L is the selector value sampled at the entry of the call (40_interpreter.md R81; log 2). -/
  runSel : s.ctl = .run → s.selL = s.inputs.sel
  /-- A fade is next only when the consumed tick's low two bits are 0 (42_fade.md R120). -/
  fadeTick : s.ctl = .fade → s.lastTick % 4 = 0

/-- Whether the core is at a hold, where the render driver's reads are defined (44_scheduler.md R168). -/
def Ctl.isHold : Ctl → Bool
  | .top => true
  | .holdTick => true
  | .advance => false
  | .run => false
  | .fade => false
  | .push => false
  | .holdPhase => true
  | .update => false
  | .holdAuto _ => true
  | .down => true

/-- The Grid an observer may read now: defined only at a hold (44_scheduler.md R168, 70_reset_and_hazards.md R211). -/
def State.shown (s : State) : Option Memory := if s.ctl.isHold then some s.grid else none

/-- The Grid an event pushed to the render driver, if it is a push. -/
def Event.pushed : Event → Option Memory
  | .renderPush g => some g
  | .restart _ _ => none

/-- The Grids pushed so far, newest first (44_scheduler.md R168). -/
def State.pushes (s : State) : List Memory := s.trace.filterMap Event.pushed

/-- A byte that is a hex digit of either case (30_encoding.md R71 (c)). -/
def isHexByte (b : Byte) : Bool :=
  decide (0x30 ≤ b ∧ b ≤ 0x39) || decide (0x41 ≤ b ∧ b ≤ 0x46) || decide (0x61 ≤ b ∧ b ≤ 0x66)

/-- Execution from offset `a` meets valid opcodes with hex operands only, until it meets the end of its sequence, an `x` or
the NUL that ends the Program (30_encoding.md R71 (b), (c); log 29), or a `w` of 0xFFFF, whose following bytes execution never
reaches: the halt ends only by a sequence switch or a reset (40_interpreter.md R81, R87 (b)). Each instruction uses one unit of
fuel. -/
def Rom.walks (r : Rom) : (fuel : Nat) → (a : Nat) → Bool
  | 0, _ => false
  | fuel + 1, a =>
    if r.read a = 0x65 ∨ r.read a = 0x73 ∨ r.read a = 0x70 then
      isHexByte (r.read (a + 1)) && isHexByte (r.read (a + 2)) && Rom.walks r fuel (a + 3)
    else if r.read a = 0x61 then Rom.walks r fuel (a + 1)
    else if r.read a = 0x77 then
      isHexByte (r.read (a + 1)) && isHexByte (r.read (a + 2)) && isHexByte (r.read (a + 3)) && isHexByte (r.read (a + 4))
        && (hex4 (r.read (a + 1)) (r.read (a + 2)) (r.read (a + 3)) (r.read (a + 4)) == waitHalt || Rom.walks r fuel (a + 5))
    else decide (r.read a = 0x78 ∨ r.read a = 0x00)

/-- An offset from which execution is well-formed; no walk takes more than PROG_SIZE + 1 instructions (40_interpreter.md R93). -/
def Rom.opcodePosition (r : Rom) (a : Nat) : Bool := r.walks (r.size + 1) a

/-- A well-formed Program (30_encoding.md R71): the last byte is the only 0x00, and execution from the start of each
sequence is well-formed. A premise of properties, not of execution. -/
abbrev Rom.wellFormed (r : Rom) : Prop :=
  r.legalSize ∧ r.read (r.size - 1) = 0x00 ∧ (∀ a < r.size - 1, r.read a ≠ 0x00)
    ∧ r.opcodePosition 0 = true ∧ ∀ a < r.size - 1, r.read a = 0x78 → r.opcodePosition (a + 1) = true

/-- PC stands where execution is well-formed, or the sequence is halted just after a `w` of 0xFFFF (40_interpreter.md R87 (b)),
where nothing is fetched. -/
abbrev State.inSequence (s : State) : Prop :=
  s.rom.opcodePosition s.pc.toNat = true ∨ s.wait = waitHalt ∧ s.ctl ≠ .run

end Sys2Proof.Machine
end

