-- ==== Sys2Proof/Certificates/Slice0/Obligations.lean ====
section
/-! DEFINITION. The statements for the provers, in the order of OBLIGATIONS.json. A frame is written as an equation
`t = { s with … }`: every field it does not name is unchanged. A sum on PC is taken mod 2^16; it leaves 16 bits in no state a
run reaches (40_interpreter.md R94; log 18). -/

open Sys2Proof Sys2Proof.Machine

/-! ### Encoding -/

/-- 30_encoding.md R60-R68: what an author writes for an instruction is decoded to that instruction, whatever follows it. -/
def Obligations.DecodeEncodeRoundTrip : Prop :=
  ∀ (i : Instr) (rest : List Byte), i.wellFormed = true → decode (encode i ++ rest) = i

/-- 30_encoding.md R61: the opcode byte alone selects the instruction and its format. -/
def Obligations.OpcodeByteSelectsInstruction : Prop :=
  ∀ (b : Byte) (rest : List Byte),
    (b = 0x65 → (∃ v, decode (b :: rest) = .e v) ∧ (decode (b :: rest)).format = .opH2)
    ∧ (b = 0x73 → (∃ v, decode (b :: rest) = .s v) ∧ (decode (b :: rest)).format = .opH2)
    ∧ (b = 0x61 → decode (b :: rest) = .a ∧ (decode (b :: rest)).format = .op)
    ∧ (b = 0x70 → (∃ v, decode (b :: rest) = .p v) ∧ (decode (b :: rest)).format = .opH2)
    ∧ (b = 0x77 → (∃ v, decode (b :: rest) = .w v) ∧ (decode (b :: rest)).format = .opH4)
    ∧ (b = 0x78 → decode (b :: rest) = .x ∧ (decode (b :: rest)).format = .op)
    ∧ (b = 0x00 → decode (b :: rest) = .nul ∧ (decode (b :: rest)).format = .op)
    ∧ (b ≠ 0x65 → b ≠ 0x73 → b ≠ 0x61 → b ≠ 0x70 → b ≠ 0x77 → b ≠ 0x78 → b ≠ 0x00 →
        decode (b :: rest) = .invalid b ∧ (decode (b :: rest)).format = .op)

/-- 30_encoding.md R63: the value of a digit byte, 0 for a byte that is no hex digit. -/
def Obligations.HexDigitValues : Prop :=
  ∀ b : Byte,
    (0x30 ≤ b.toNat → b.toNat ≤ 0x39 → (hexDigit b).toNat = b.toNat - 0x30)
    ∧ (0x61 ≤ b.toNat → b.toNat ≤ 0x66 → (hexDigit b).toNat = b.toNat - 0x61 + 10)
    ∧ (0x41 ≤ b.toNat → b.toNat ≤ 0x46 → (hexDigit b).toNat = b.toNat - 0x41 + 10)
    ∧ (¬(0x30 ≤ b.toNat ∧ b.toNat ≤ 0x39) → ¬(0x61 ≤ b.toNat ∧ b.toNat ≤ 0x66) →
        ¬(0x41 ≤ b.toNat ∧ b.toNat ≤ 0x46) → (hexDigit b).toNat = 0)

/-- 30_encoding.md R64, R66: the instruction at PC takes its operand from the digits at PC+1 on, the first the most
significant. -/
def Obligations.OperandsAreAssembledBigEndian : Prop :=
  ∀ s : State,
    let hex := fun a => (hexDigit (s.rom.read a)).toNat
    let pc := s.pc.toNat
    (s.rom.read pc = 0x65 → ∃ v, s.fetch = .e v ∧ v.toNat = hex (pc + 1) * 16 + hex (pc + 2))
    ∧ (s.rom.read pc = 0x73 → ∃ v, s.fetch = .s v ∧ v.toNat = hex (pc + 1) * 16 + hex (pc + 2))
    ∧ (s.rom.read pc = 0x70 → ∃ v, s.fetch = .p (Pan.ofByte v) ∧ v.toNat = hex (pc + 1) * 16 + hex (pc + 2))
    ∧ (s.rom.read pc = 0x77 → ∃ v, s.fetch = .w v
        ∧ v.toNat = hex (pc + 1) * 4096 + hex (pc + 2) * 256 + hex (pc + 3) * 16 + hex (pc + 4))

/-- 30_encoding.md R67: the masks of the pan control byte's fields. -/
def Obligations.PanByteFields : Prop :=
  ∀ v : Byte,
    ((Pan.ofByte v).down = true ↔ v &&& 0x80 ≠ 0) ∧ ((Pan.ofByte v).right = true ↔ v &&& 0x40 ≠ 0)
    ∧ ((Pan.ofByte v).up = true ↔ v &&& 0x20 ≠ 0) ∧ ((Pan.ofByte v).left = true ↔ v &&& 0x10 ≠ 0)
    ∧ (Pan.ofByte v).amount.toNat = (v &&& 0x0F).toNat

/-- Words of 95_test_vectors.md (V-E1, V-S2, V-A-1, V-P4, V-H9, V-D6, V-D7, V-D9) decode to the instructions they stand for. -/
def Obligations.SpecWordsDecode : Prop :=
  decode [0x65, 0x30, 0x66] = .e 0x0F
  ∧ decode [0x73, 0x31, 0x47] = .s 0x10
  ∧ decode [0x61] = .a
  ∧ decode [0x70, 0x38, 0x31] = .p { down := true, right := false, up := false, left := false, amount := 1 }
  ∧ decode [0x77, 0x31, 0x32, 0x33, 0x34] = .w 0x1234
  ∧ decode [0x78] = .x
  ∧ decode [0x00] = .nul
  ∧ decode [0x71] = .invalid 0x71

/-! ### The step and the instructions -/

/-- 40_interpreter.md R83: in the run stage a step is the meaning of the instruction decoded at PC, and nothing else (the
model's step adds nothing around an instruction: log 9). -/
def Obligations.StepRunsDecodedInstruction : Prop :=
  ∀ (s : State) (i : Instr), s.rom.legalSize → s.ctl = .run → decode s.fetchBytes = i → i.wellFormed = true →
    step s = exec i s

/-- 41_grid_ops.md R100, `e`. -/
def Obligations.SetEffectResult : Prop :=
  (∀ (imm8 : Byte) (s : State), exec (.e imm8) s = .next { s with eff := imm8, pc := s.pc + 3 })
  ∧ ∀ s : State, s.rom.read s.pc.toNat = 0x65 →
      s.fetch = .e (hex2 (s.rom.read (s.pc.toNat + 1)) (s.rom.read (s.pc.toNat + 2)))

/-- 41_grid_ops.md R101, `s`: the one cell at idx8 takes EFF, every other byte of the Grid is unchanged. -/
def Obligations.SetCellResult : Prop :=
  (∀ (idx8 : Byte) (s : State), ∃ t, exec (.s idx8) s = .next t
      ∧ t.cell idx8 = s.eff
      ∧ (∀ a : Nat, a ≠ idx8.toNat → t.grid.read a = s.grid.read a)
      ∧ t = { s with grid := t.grid, pc := s.pc + 3 })
  ∧ ∀ s : State, s.rom.read s.pc.toNat = 0x73 →
      s.fetch = .s (hex2 (s.rom.read (s.pc.toNat + 1)) (s.rom.read (s.pc.toNat + 2)))

/-- 41_grid_ops.md R102, `a`: every cell takes EFF. -/
def Obligations.SetAllResult : Prop :=
  (∀ s : State, ∃ t, exec .a s = .next t
      ∧ (∀ i : Byte, t.cell i = s.eff)
      ∧ t = { s with grid := t.grid, pc := s.pc + 1 })
  ∧ ∀ s : State, s.rom.read s.pc.toNat = 0x61 → s.fetch = .a

/-- 41_grid_ops.md R104-R107: what `p` does with one direction bit set, for every amount k, at row r and column c. -/
def Obligations.PanOneDirection : Prop :=
  ∀ (k : Nibble) (s : State),
    (∃ t, exec (.p { down := false, right := false, up := false, left := true, amount := k }) s = .next t
      ∧ (∀ r c : Nat, r < 16 → c < 16 → t.grid.read (16 * r + c) =
          if c ≤ 15 - k.toNat then s.grid.read (16 * r + c + k.toNat) else s.grid.read (16 * r + c))
      ∧ t = { s with grid := t.grid, pc := s.pc + 3 })
    ∧ (∃ t, exec (.p { down := false, right := true, up := false, left := false, amount := k }) s = .next t
      ∧ (∀ r c : Nat, r < 16 → c < 16 → t.grid.read (16 * r + c) =
          if k.toNat ≤ c then s.grid.read (16 * r + c - k.toNat) else s.grid.read (16 * r + c))
      ∧ t = { s with grid := t.grid, pc := s.pc + 3 })
    ∧ (∃ t, exec (.p { down := false, right := false, up := true, left := false, amount := k }) s = .next t
      ∧ (∀ r c : Nat, r < 16 → c < 16 → t.grid.read (16 * r + c) =
          if r ≤ 15 - k.toNat then s.grid.read (16 * (r + k.toNat) + c) else s.grid.read (16 * r + c))
      ∧ t = { s with grid := t.grid, pc := s.pc + 3 })
    ∧ (∃ t, exec (.p { down := true, right := false, up := false, left := false, amount := k }) s = .next t
      ∧ (∀ r c : Nat, r < 16 → c < 16 → t.grid.read (16 * r + c) =
          if k.toNat ≤ r then s.grid.read (16 * (r - k.toNat) + c) else s.grid.read (16 * r + c))
      ∧ t = { s with grid := t.grid, pc := s.pc + 3 })

/-- 41_grid_ops.md R103, D13: `p` is its four one-direction pans one after another in the order DOWN, RIGHT, UP, LEFT, each
on the Grid the one before left; a direction whose bit is clear leaves the Grid as it is; the operand is the byte of the two
digits at PC+1. What one direction does is PanOneDirection. -/
def Obligations.PanAppliesDirectionsInOrder : Prop :=
  (∀ (v : Pan) (s : State), ∃ t t1 t2 t3 t4,
    exec (.p v) s = .next t
    ∧ exec (.p { v with right := false, up := false, left := false }) s = .next t1
    ∧ exec (.p { v with down := false, up := false, left := false }) t1 = .next t2
    ∧ exec (.p { v with down := false, right := false, left := false }) t2 = .next t3
    ∧ exec (.p { v with down := false, right := false, up := false }) t3 = .next t4
    ∧ t.grid = t4.grid
    ∧ (v.down = false → t1.grid = s.grid) ∧ (v.right = false → t2.grid = t1.grid)
    ∧ (v.up = false → t3.grid = t2.grid) ∧ (v.left = false → t4.grid = t3.grid)
    ∧ t = { s with grid := t.grid, pc := s.pc + 3 })
  ∧ ∀ s : State, s.rom.read s.pc.toNat = 0x70 →
      s.fetch = .p (Pan.ofByte (hex2 (s.rom.read (s.pc.toNat + 1)) (s.rom.read (s.pc.toNat + 2))))

/-- 41_grid_ops.md R108 (a), (b): with amount 0, or with no direction bit, the Grid is unchanged. -/
def Obligations.PanOfNothingLeavesGrid : Prop :=
  ∀ (v : Pan) (s : State),
    v.amount = 0 ∨ (v.down = false ∧ v.right = false ∧ v.up = false ∧ v.left = false) →
    ∃ t, exec (.p v) s = .next t ∧ ∀ i : Byte, t.cell i = s.cell i

/-- 41_grid_ops.md R108 (d): all four directions bring a single cell that is far enough from the edges back to its place. -/
def Obligations.PanAllFourReturnsSingleCell : Prop :=
  ∀ (k : Nibble) (r c : Nat) (s : State),
    k.toNat ≤ r → r + 2 * k.toNat ≤ 15 → k.toNat ≤ c → c + 2 * k.toNat ≤ 15 →
    (∀ i : Byte, i.toNat ≠ 16 * r + c → s.cell i = 0x00) →
    ∃ t, exec (.p { down := true, right := true, up := true, left := true, amount := k }) s = .next t
      ∧ ∀ i : Byte, t.cell i = s.cell i

/-- 40_interpreter.md R86: `w`; a nonzero operand ends the advance call, `w0000` falls through. Where the controller goes at
the end of a call (to `fade_step()` or to the top of the loop by the tick consumed, 44_scheduler.md R163) is written with
the model's positions (log 1) and LAST_TICK (log 3). -/
def Obligations.WaitResult : Prop :=
  (∀ (imm16 : Word) (s : State), exec (.w imm16) s = .next
      (if imm16 = 0x0000 then { s with wait := 0x0000, pc := s.pc + 5 }
       else { s with wait := imm16, pc := s.pc + 5, ctl := if s.lastTick % 4 = 0 then .fade else .top }))
  ∧ ∀ s : State, s.rom.read s.pc.toNat = 0x77 →
      s.fetch = .w (hex4 (s.rom.read (s.pc.toNat + 1)) (s.rom.read (s.pc.toNat + 2))
        (s.rom.read (s.pc.toNat + 3)) (s.rom.read (s.pc.toNat + 4)))

/-- 40_interpreter.md R88-R91, 60_exceptions.md R181: `x`, NUL and INVALID restart the selected sequence: PC goes to its
start, WAIT is cleared, SEL_L keeps the selector value of the call, EFF, the Grid and the scheduler's state are kept, the
call returns. That the selector value of the call is the one SEL_L holds is the model's choice (log 2), and so are the
observer's record of cause and PC (log 16) and the form of the return (log 1, 3). -/
def Obligations.RestartResult : Prop :=
  (∀ (cause : RestartCause) (i : Instr) (s : State),
      (i = .x ∧ cause = .endX ∨ i = .nul ∧ cause = .endNul ∨ ∃ b, i = .invalid b ∧ cause = .invalid b) →
      exec i s = .next { s with
        pc := BitVec.ofNat 16 (s.rom.sequenceStart s.selL), wait := 0x0000, selL := s.selL
        ctl := if s.lastTick % 4 = 0 then .fade else .top
        trace := .restart cause s.pc :: s.trace })
  ∧ ∀ s : State,
      (s.rom.read s.pc.toNat = 0x78 → s.fetch = .x)
      ∧ (s.rom.read s.pc.toNat = 0x00 → s.fetch = .nul)
      ∧ (s.rom.read s.pc.toNat ∉ namedOpcodes → s.fetch = .invalid (s.rom.read s.pc.toNat))

/-- 40_interpreter.md R84, R85: `select(n)` goes to the offset just after the n-th 0x78 byte counted from offset 0 (offset 0
for n = 0) when no 0x00 stands before it, and to offset 0 when the first 0x00 comes before the n-th 0x78; it writes PC,
WAIT and SEL_L only. -/
def Obligations.SelectLandsAtSequenceStart : Prop :=
  ∀ (s : State) (n : Nat), s.rom.legalSize →
    let delimitersBefore := fun a => (List.range a).countP fun b => s.rom.read b == 0x78
    (∀ a : Nat, a ≤ s.rom.size → (∀ b < a, s.rom.read b ≠ 0x00) → delimitersBefore a = n →
        (a = 0 ∨ s.rom.read (a - 1) = 0x78) → (s.select n).pc.toNat = a)
    ∧ (∀ z : Nat, s.rom.read z = 0x00 → (∀ b < z, s.rom.read b ≠ 0x00) → delimitersBefore z < n →
        (s.select n).pc.toNat = 0)
    ∧ s.select n = { s with pc := (s.select n).pc, wait := 0x0000, selL := n }

/-- 40_interpreter.md R81, R87 (b), 70_reset_and_hazards.md R213: a selector that differs from SEL_L at the entry of an
advance call ends any wait, the halt included, and the run stage starts at the new sequence (the position of the run stage:
log 1; the environment's move after the step: log 9). -/
def Obligations.SequenceSwitchEndsAnyWait : Prop :=
  ∀ s : State, s.rom.legalSize → s.ctl = .advance → s.inputs.sel ≠ s.selL →
    step s = .next ({ s with
      pc := BitVec.ofNat 16 (s.rom.sequenceStart s.inputs.sel), wait := 0x0000, selL := s.inputs.sel
      ctl := .run } : State).environment

/-- 40_interpreter.md R82: the wait stage of an advance call while the selector is steady (positions and the form of the
return: log 1, 3; the environment's move: log 9). -/
def Obligations.WaitStageOfAdvance : Prop :=
  ∀ s : State, s.rom.legalSize → s.ctl = .advance → s.inputs.sel = s.selL →
    let returned : Ctl := if s.lastTick % 4 = 0 then .fade else .top
    (s.wait.toNat = 0xFFFF → step s = .next ({ s with ctl := returned } : State).environment)
    ∧ (1 < s.wait.toNat → s.wait.toNat < 0xFFFF →
        step s = .next ({ s with wait := BitVec.ofNat 16 (s.wait.toNat - 1), ctl := returned } : State).environment)
    ∧ (s.wait.toNat = 1 → step s = .next ({ s with wait := 0x0000, ctl := .run } : State).environment)
    ∧ (s.wait.toNat = 0 → step s = .next ({ s with ctl := .run } : State).environment)

/-- 40_interpreter.md R82: after WAIT = N (1 ≤ N ≤ 0xFFFE), with the selector steady, N − 1 advance calls only count down
and the N-th starts the run stage where the cursor stands (positions: log 1). -/
def Obligations.WaitResumesAfterNCalls : Prop :=
  ∀ (s : State) (n : Nat), s.inputs.sel = s.selL → s.wait.toNat = n → 1 ≤ n → n ≤ 0xFFFE →
    (∀ j : Nat, 0 < j → j < n →
      (State.advanceEntry^[j] s).wait.toNat = n - j ∧ (State.advanceEntry^[j] s).ctl ≠ .run
      ∧ State.advanceEntry^[j] s = { s with wait := (State.advanceEntry^[j] s).wait, ctl := (State.advanceEntry^[j] s).ctl })
    ∧ State.advanceEntry^[n] s = { s with wait := 0x0000, ctl := .run }

/-- 40_interpreter.md R93: from any state of the run stage an advance call returns after at most PROG_SIZE + 1 instructions,
whatever the bytes of the Program. -/
def Obligations.AdvanceCallTerminates : Prop :=
  ∀ s : State, s.rom.legalSize → s.ctl = .run →
    ∃ (k : Nat) (t : State), k ≤ s.rom.size + 1 ∧ Host.Core.run Sys2Proof.core k s = .next t ∧ t.ctl ≠ .run

/-- 30_encoding.md R71, 40_interpreter.md R87 (b), R91: in a well-formed Program, from an opcode position or a halt, no step
raises INVALID; PC stays at opcode positions but for the halt just after a `w` of 0xFFFF, which only that `w` enters (which
bytes count as valid at the end of the Program: log 29; the halt is named by the model's positions: log 1). -/
def Obligations.WellFormedProgramNeverInvalid : Prop :=
  ∀ s t : State, s.rom.wellFormed → s.inSequence → step s = .next t →
    t.inSequence
    ∧ (s.rom.opcodePosition s.pc.toNat = true → ¬(s.ctl = .run ∧ s.fetch = .w 0xFFFF) →
        t.rom.opcodePosition t.pc.toNat = true)
    ∧ ∀ (b : Byte) (p : Word), Event.restart (.invalid b) p ∈ t.trace → Event.restart (.invalid b) p ∈ s.trace

/-! ### The fade state machine -/

/-- 42_fade.md R121-R124: what one `fade_step()` does to each cell, and that of the core's state it writes only the Grid (and
the controller moves on). -/
def Obligations.FadeStepPerCell : Prop :=
  ∀ s : State, s.rom.legalSize → s.ctl = .fade → ∃ t, step s = .next t
    ∧ t = { s with grid := t.grid, ctl := t.ctl, inputs := t.inputs, envClock := t.envClock }
    ∧ ∀ i : Byte,
        let c := s.cell i
        let auto := c &&& 0x10 ≠ 0
        let bounce := c &&& 0x40 ≠ 0
        let increasing := c &&& 0x20 ≠ 0
        let level := c.toNat % 16
        (¬auto → t.cell i = c)
        ∧ (auto → increasing → level < 15 → t.cell i = c + 1)
        ∧ (auto → increasing → level = 15 → bounce → t.cell i = c - 0x20)
        ∧ (auto → increasing → level = 15 → ¬bounce → t.cell i = c - 0x10)
        ∧ (auto → ¬increasing → 0 < level → t.cell i = c - 1)
        ∧ (auto → ¬increasing → level = 0 → bounce → t.cell i = c + 0x20)
        ∧ (auto → ¬increasing → level = 0 → ¬bounce → t.cell i = c - 0x10)

/-- 42_fade.md R126: each cell's new value depends only on its own old value, and on a Grid without an autonomous cell
`fade_step()` changes nothing. -/
def Obligations.FadeIsCellwise : Prop :=
  (∀ s s' t t' : State, s.ctl = .fade → s'.ctl = .fade → step s = .next t → step s' = .next t' →
    ∀ i : Byte, s.cell i = s'.cell i → t.cell i = t'.cell i)
  ∧ ∀ s : State, Inv s → s.ctl = .fade → (∀ i : Byte, s.cell i &&& 0x10 = 0) →
      ∃ t, step s = .next t ∧ t.grid = s.grid

/-- 42_fade.md R125: an autonomous bouncing cell returns after 32 fade steps; one that does not bounce has stopped at its
end level after 16. -/
def Obligations.FadeCycleAndStop : Prop :=
  ∀ (g : Memory) (i : Byte), g.read i.toNat &&& 0x10 ≠ 0 →
    (g.read i.toNat &&& 0x40 ≠ 0 → (fadeGrid^[32] g).read i.toNat = g.read i.toNat)
    ∧ (g.read i.toNat &&& 0x40 = 0 →
        (fadeGrid^[16] g).read i.toNat &&& 0x10 = 0
        ∧ ((fadeGrid^[16] g).read i.toNat).toNat % 16 = if g.read i.toNat &&& 0x20 ≠ 0 then 15 else 0)

/-- 44_scheduler.md R163, 42_fade.md R127: a `fade_step()` is followed by one `render_push()` of the faded Grid and the top
of the loop (two steps of the model: log 1). -/
def Obligations.FadeIsFollowedByPush : Prop :=
  ∀ s : State, s.rom.legalSize → s.ctl = .fade → ∃ t u, step s = .next t ∧ step t = .next u
    ∧ u.pushes = t.grid :: s.pushes ∧ u.grid = t.grid ∧ u.ctl = .top

/-! ### The automaton -/

/-- 43_automaton.md R141, R142, R144, R147: the in-place update as a function of the old Grid: below the top row each cell
becomes the larger of its decremented value and the old value above it; a top-row cell is decremented, or overwritten by
its column's spark. The draws are free values indexed by drawCount (log 15); positions and the environment's move are the
model's (log 1, 9). -/
def Obligations.AutomatonUpdateClosedForm : Prop :=
  ∀ s : State, s.rom.legalSize → s.ctl = .update → ∃ t, step s = .next t
    ∧ t = ({ s with
        grid := t.grid, drawCount := (drawSparks s.params.nDiscard 16 s.drawCount).2
        ctl := .holdAuto s.params.autoWaitTicks } : State).environment
    ∧ (∀ r c : Nat, 0 < r → r < 16 → c < 16 → (t.grid.read (16 * r + c)).toNat =
        max ((s.grid.read (16 * r + c)).toNat - 1) (s.grid.read (16 * (r - 1) + c)).toNat)
    ∧ ∀ c : Nat, c < 16 → (t.grid.read c).toNat =
        match (drawSparks s.params.nDiscard 16 s.drawCount).1[c]? with
        | some (some l) => l.toNat
        | _ => (s.grid.read c).toNat - 1

/-- 43_automaton.md R144: one update has one spark entry a column and consumes 16 + (1 + N_DISCARD)·f draws, f the number of
gates that fire. -/
def Obligations.SparkDrawsConsumed : Prop :=
  ∀ nDiscard k : Nat,
    (drawSparks nDiscard 16 k).1.length = 16
    ∧ (drawSparks nDiscard 16 k).2 = k + 16 + (1 + nDiscard) * (drawSparks nDiscard 16 k).1.countP Option.isSome

/-- 43_automaton.md R145: an update keeps every cell at most 15 when every cell was at most 15. -/
def Obligations.AutomatonKeepsPlainCells : Prop :=
  ∀ s : State, s.rom.legalSize → s.ctl = .update → (∀ i : Byte, (s.cell i).toNat ≤ 15) →
    ∃ t, step s = .next t ∧ ∀ i : Byte, (t.cell i).toNat ≤ 15

/-- 43_automaton.md R146: the motion of a single drop of level L from row r0, column c0, with no spark: after j updates the
cell d rows below the start holds L − (j − d) if d ≤ j (0 once that is spent), everything else is 0. -/
def Obligations.SingleDropMotion : Prop :=
  ∀ (g : Memory) (level : Byte) (r0 c0 : Nat), r0 < 16 → c0 < 16 → 1 ≤ level.toNat → level.toNat ≤ 15 →
    (∀ r c : Nat, r < 16 → c < 16 → g.read (16 * r + c) = if r = r0 ∧ c = c0 then level else 0x00) →
    ∀ j r c : Nat, r < 16 → c < 16 →
      (((updateGrid (List.replicate 16 none))^[j] g).read (16 * r + c)).toNat =
        if c = c0 ∧ r0 ≤ r ∧ r - r0 ≤ j then level.toNat - (j - (r - r0)) else 0

/-! ### The scheduler -/

/-- 44_scheduler.md R161, R164, R167, 70_reset_and_hazards.md R204, R205: a hold keeps the core's state; only the
environment's lines (and the model's clock, log 9) move. That a hold is a step is the model's choice (log 10), and so are
HOLD_AUTO(n + 1) as the throttle's hold (log 22) and WAKE as a level the parked core samples (log 30). -/
def Obligations.HoldsKeepTheCore : Prop :=
  ∀ s : State, s.rom.legalSize →
    (s.ctl = .holdTick ∧ s.inputs.tick = s.lastTick
      ∨ (∃ n, s.ctl = .holdAuto (n + 1)) ∧ s.inputs.tick = s.lastTick
      ∨ s.ctl = .holdPhase ∧ s.inputs.phase ≠ s.params.phaseTarget
      ∨ s.ctl = .down ∧ s.inputs.wake = false) →
    ∃ t, step s = .next t ∧ t = { s with inputs := t.inputs, envClock := t.envClock }

/-- 44_scheduler.md R161, R162, 60_exceptions.md R184: from the top of the loop (no powerdown requested) or from the hold, a
tick transition is consumed once and the step function MODE selects is entered; without one the core is at the hold
(positions: log 1; the fused first attempt at the top: log 21; the environment's move: log 9). -/
def Obligations.TickTransitionEntersMode : Prop :=
  ∀ s : State, s.rom.legalSize → (s.ctl = .top ∧ s.inputs.pwrReq = false ∨ s.ctl = .holdTick) →
    (s.inputs.tick ≠ s.lastTick → step s = .next ({ s with
      lastTick := s.inputs.tick
      ctl := match s.mode with
        | .interp => .advance
        | .automaton => .holdPhase } : State).environment)
    ∧ (s.inputs.tick = s.lastTick → step s = .next ({ s with ctl := .holdTick } : State).environment)

/-- 43_automaton.md R140, 44_scheduler.md R164, R165: the phase gate lets the update begin; each tick transition counts the
throttle down by one; when none is left the Grid is pushed and the loop is at its top (positions: log 1, 22; the
environment's move: log 9; the record of the push: log 16). -/
def Obligations.AutomatonGateAndThrottle : Prop :=
  ∀ s : State, s.rom.legalSize →
    (s.ctl = .holdPhase → s.inputs.phase = s.params.phaseTarget →
      step s = .next ({ s with ctl := .update } : State).environment)
    ∧ (∀ n, s.ctl = .holdAuto (n + 1) → s.inputs.tick ≠ s.lastTick →
      step s = .next ({ s with lastTick := s.inputs.tick, ctl := .holdAuto n } : State).environment)
    ∧ (s.ctl = .holdAuto 0 →
      step s = .next ({ s with trace := .renderPush s.grid :: s.trace, ctl := .top } : State).environment)

/-- 44_scheduler.md R161, D21: with TICK_STRICT every tick value the core consumes is the one before plus 1. It rests on how
far the model lets the synchronizer run ahead (log 13). -/
def Obligations.StrictTicksAreConsecutive : Prop :=
  ∀ s t : State, Inv s → s.params.tickStrict = true → step s = .next t →
    t.lastTick = s.lastTick ∨ t.lastTick = (s.lastTick + 1) % 2 ^ s.params.tickW

/-- 44_scheduler.md R163, R167, 60_exceptions.md R189, D15: a step pushes the Grid at most once, and only after a
`fade_step()` or at the end of an automaton step; nothing else is ever pushed. These two places are named by positions of
the model: `push` after a `fade_step()` (log 1) and HOLD_AUTO(0) at the end of an automaton step (log 22); the pushes are
read from the observer's record (log 16). -/
def Obligations.PushesOnlyWhereStated : Prop :=
  ∀ s t : State, step s = .next t →
    (s.ctl = .push ∨ s.ctl = .holdAuto 0) ∧ t.pushes = s.grid :: s.pushes ∧ t.grid = s.grid
    ∨ ¬(s.ctl = .push ∨ s.ctl = .holdAuto 0) ∧ t.pushes = s.pushes

/-- 44_scheduler.md R167: powerdown blanks the Grid, pushes nothing and parks the core until WAKE, which resets it. WAKE as a
level the parked core samples is the model's choice (log 30), and so is the environment's move after each step (log 9). -/
def Obligations.PowerdownAndWake : Prop :=
  (∀ s : State, s.rom.legalSize → s.ctl = .top → s.inputs.pwrReq = true → ∃ t, step s = .next t
    ∧ (∀ a : Nat, t.grid.read a = 0x00)
    ∧ t = ({ s with grid := t.grid, ctl := .down } : State).environment)
  ∧ (∀ s : State, s.rom.legalSize → s.ctl = .down → s.inputs.wake = false → step s = .next s.environment)
  ∧ ∀ s : State, s.rom.legalSize → s.ctl = .down → s.inputs.wake = true → step s = .next s.coreReset.environment

/-! ### Reset -/

/-- 10_state.md R36: what reset leaves, on power-on and on any reset of the core. -/
def Obligations.ResetValues : Prop :=
  (∀ s : State,
    (∀ i : Byte, s.coreReset.cell i = 0x00) ∧ s.coreReset.eff = 0x00 ∧ s.coreReset.wait = 0x0000
    ∧ s.coreReset.pc = 0x0000 ∧ s.coreReset.selL = 0 ∧ s.coreReset.lastTick = s.inputs.tick
    ∧ s.coreReset.mode = s.mode ∧ s.coreReset.ctl = .top)
  ∧ (∀ i : Byte, State.reset.cell i = 0x00) ∧ State.reset.eff = 0x00 ∧ State.reset.wait = 0x0000
  ∧ State.reset.pc = 0x0000 ∧ State.reset.selL = 0 ∧ State.reset.lastTick = State.reset.inputs.tick
  ∧ State.reset.ctl = .top

/-- 70_reset_and_hazards.md R201: after reset the first tick transition leads to the first instruction at PC = 0, or, with
SEL ≠ 0, at the start of the sequence SEL names, before any instruction has run (positions: log 1). -/
def Obligations.FirstInstructionAfterReset : Prop :=
  ∀ s : State, s.rom.legalSize → s.mode = .interp → s.ctl = .holdTick → s.inputs.tick ≠ s.lastTick →
    s.pc = 0x0000 → s.wait = 0x0000 → s.selL = 0 →
    ∃ t u, step s = .next t ∧ step t = .next u ∧ u.ctl = .run ∧ u.grid = s.grid ∧ u.eff = s.eff
      ∧ u.wait = 0x0000 ∧ u.selL = t.inputs.sel
      ∧ (t.inputs.sel = 0 → u.pc = 0x0000)
      ∧ (t.inputs.sel ≠ 0 → u.pc = BitVec.ofNat 16 (s.rom.sequenceStart t.inputs.sel))

/-! ### Rules of the whole machine -/

/-- The invariant holds after reset. Its clauses rest on the model's reset values (log 5, 6, 7, 8). -/
def Obligations.ResetSatisfiesInv : Prop := Inv State.reset

/-- Every step keeps the invariant, from every state that has it. Clauses of `Inv` rest on the model's choices:
`tickStrict` on how far a strict synchronizer may run ahead (log 13), `runSel` on SEL_L holding the n an advance call sampled
(log 2) while SEL rests in the run stage (log 11), and `ctlLegal`, `runWait`, `runSel` and `fadeTick` name the model's
controller positions (log 1). -/
def Obligations.StepKeepsInv : Prop :=
  ∀ s t : State, Inv s → step s = .next t → Inv t

/-- 60_exceptions.md R180, 93_implementation_defined.md I12: a machine with a Program of legal size always has a next state;
with any other it is refused before it runs (log 17). -/
def Obligations.StepAlwaysGoesOn : Prop :=
  ∀ s : State, (s.rom.legalSize → ∃ t, step s = .next t) ∧ (¬s.rom.legalSize → step s = .refused .programSize)

/-- 20_memory.md R42: no step, of an instruction, a unit or the environment, writes the Program. -/
def Obligations.ProgramIsImmutable : Prop :=
  ∀ s t : State, step s = .next t → t.rom = s.rom

/-- 10_state.md R38: which step may change which register, and which may change the Grid; MODE (R31) and the build's
parameters (in State by the model's choice, log 4) never change. The steps are named by the model's positions (log 1, 22), and WAKE is
a level the parked core samples (log 30). -/
def Obligations.WriteOwnership : Prop :=
  ∀ s t : State, step s = .next t →
    let wakes := s.ctl = .down ∧ s.inputs.wake = true
    (t.mode = s.mode ∧ t.params = s.params) ∧
    (t.eff ≠ s.eff → s.ctl = .run ∧ (∃ v, s.fetch = .e v) ∨ wakes)
    ∧ (t.wait ≠ s.wait → s.ctl = .advance
        ∨ s.ctl = .run ∧ ((∃ v, s.fetch = .w v) ∨ s.fetch = .x ∨ s.fetch = .nul ∨ ∃ b, s.fetch = .invalid b) ∨ wakes)
    ∧ (t.pc ≠ s.pc → s.ctl = .run ∨ s.ctl = .advance ∧ s.inputs.sel ≠ s.selL ∨ wakes)
    ∧ (t.selL ≠ s.selL → s.ctl = .advance ∧ t.selL = s.inputs.sel ∨ wakes)
    ∧ (t.lastTick ≠ s.lastTick → t.lastTick = s.inputs.tick
        ∧ (s.ctl = .top ∨ s.ctl = .holdTick ∨ (∃ n, s.ctl = .holdAuto (n + 1)) ∨ wakes))
    ∧ (t.grid ≠ s.grid →
        s.ctl = .run ∧ ((∃ v, s.fetch = .s v) ∨ s.fetch = .a ∨ ∃ v, s.fetch = .p v)
        ∨ s.ctl = .fade ∨ s.ctl = .update ∨ s.ctl = .top ∧ s.inputs.pwrReq = true ∨ wakes)

/-- 44_scheduler.md R166: in AUTOMATON mode no step but the reset on WAKE touches the interpreter's registers; in INTERP
mode the automaton never runs (no entropy is drawn, and the controller is never at a position of the automaton: log 1, 15). -/
def Obligations.ModesDoNotMix : Prop :=
  ∀ s t : State, Inv s → step s = .next t →
    (s.mode = .automaton → s.ctl ≠ .down → t.eff = s.eff ∧ t.wait = s.wait ∧ t.pc = s.pc ∧ t.selL = s.selL)
    ∧ (s.mode = .interp → t.drawCount = s.drawCount ∧ t.ctl ≠ .holdPhase ∧ t.ctl ≠ .update ∧ ∀ n, t.ctl ≠ .holdAuto n)

/-- 10_state.md R34, 44_scheduler.md R160: the core reads SEL only at the entry of an advance call, TICK only in its tick
waits (and at reset), PHASE only at the phase gate, PWR_REQ only at the top of the loop, WAKE only when it is down: two
runs that differ only in lines the step does not read stay the same but for those lines (positions: log 1, 22; PWR_REQ and
the tick in one step at the top: log 21; WAKE as a level: log 30). -/
def Obligations.InputsAreReadOnlyWhereStated : Prop :=
  ∀ (s : State) (i : Inputs), s.rom.legalSize →
    (s.ctl = .advance → i.sel = s.inputs.sel) →
    (s.ctl = .top ∨ s.ctl = .holdTick ∨ (∃ n, s.ctl = .holdAuto (n + 1)) ∨ s.ctl = .down → i.tick = s.inputs.tick) →
    (s.ctl = .holdPhase → i.phase = s.inputs.phase) →
    (s.ctl = .top → i.pwrReq = s.inputs.pwrReq) →
    (s.ctl = .down → i.wake = s.inputs.wake) →
    ∃ t t', step s = .next t ∧ step { s with inputs := i } = .next t' ∧ t' = { t with inputs := t'.inputs }

/-- 20_memory.md R50, 44_scheduler.md R167: SEL changes only between the core's step functions, and while the core is down
the synchronizer leaves TICK and PHASE alone (log 14). Which controller positions count as between them is the model's
choice (log 11). -/
def Obligations.SelectorIsSteadyDuringStep : Prop :=
  ∀ s t : State, step s = .next t →
    (t.inputs.sel ≠ s.inputs.sel → t.ctl = .top ∨ t.ctl = .holdTick ∨ t.ctl = .advance ∨ t.ctl = .down)
    ∧ (t.ctl = .down → t.inputs.tick = s.inputs.tick ∧ t.inputs.phase = s.inputs.phase)
end

