-- ==== Sys2Proof/Laws/Memory.lean ====
section
/-! SUPPORT. The laws of the canonical memory: what a read gives after each operation, and that every operation keeps the
canonical form and the bound on addresses. The read laws need no canonical form. -/

namespace Sys2Proof.Machine

/-- Every listed address is below `n`. -/
abbrev Memory.below (m : Memory) (n : Nat) : Prop := ∀ c ∈ m, c.1 < n

theorem read_of_not_listed : ∀ (m : Memory) (a : Nat), (∀ c ∈ m, c.1 ≠ a) → m.read a = Memory.unlisted
  | [], _, _ => rfl
  | c :: m, a, h => by
    have hc : a ≠ c.1 := fun e => h c (by simp) e.symm
    simp only [Memory.read, if_neg hc]
    exact read_of_not_listed m a fun d hd => h d (List.mem_cons_of_mem _ hd)

theorem erase_not_listed (m : Memory) (a : Nat) : ∀ c ∈ m.erase a, c.1 ≠ a := by
  simp [Memory.erase]

theorem read_erase : ∀ (m : Memory) (a b : Nat),
    (m.erase a).read b = if b = a then Memory.unlisted else m.read b
  | [], a, b => by simp [Memory.erase, Memory.read]
  | c :: m, a, b => by
    have ih := read_erase m a b
    simp only [Memory.erase] at ih ⊢
    by_cases hc : c.1 = a
    · rw [List.filter_cons_of_neg (by simp [hc]), ih]
      by_cases hb : b = a
      · simp [hb]
      · have hbc : b ≠ c.1 := fun e => hb (e.trans hc)
        simp [hb, Memory.read, if_neg hbc]
    · rw [List.filter_cons_of_pos (by simp [hc])]
      by_cases hbc : b = c.1
      · have hb : b ≠ a := fun e => hc (hbc.symm.trans e)
        rw [if_neg hb]
        simp [Memory.read, if_pos hbc]
      · simp only [Memory.read, if_neg hbc, ih]

theorem read_insert : ∀ (m : Memory) (a : Nat) (v : Byte) (b : Nat), (∀ c ∈ m, c.1 ≠ a) →
    (m.insert a v).read b = if b = a then v else m.read b
  | [], a, v, b, _ => by simp [Memory.insert, Memory.read]
  | c :: m, a, v, b, h => by
    have hca : c.1 ≠ a := h c (by simp)
    have ih := read_insert m a v b fun d hd => h d (List.mem_cons_of_mem _ hd)
    simp only [Memory.insert]
    split
    · simp [Memory.read]
    · by_cases hbc : b = c.1
      · have hb : b ≠ a := fun e => hca (hbc.symm.trans e)
        simp [Memory.read, if_pos hbc, if_neg hb]
      · simp only [Memory.read, if_neg hbc, ih]

/-- A read after a write gives the value written at its address and the old value elsewhere. -/
@[simp] theorem read_write (m : Memory) (a : Nat) (v : Byte) (b : Nat) :
    (m.write a v).read b = if b = a then v else m.read b := by
  simp only [Memory.write]
  split
  · rename_i hv
    rw [read_erase, hv]
  · rw [read_insert _ _ _ _ (erase_not_listed m a), read_erase]
    by_cases hb : b = a <;> simp [hb]

theorem erase_wf (m : Memory) (a : Nat) (h : m.wf) : (m.erase a).wf :=
  ⟨h.1.filter _, fun c hc => h.2 c (List.mem_of_mem_filter hc)⟩

theorem mem_insert : ∀ (m : Memory) (a : Nat) (v : Byte) (c : Host.Cell), c ∈ m.insert a v → c = (a, v) ∨ c ∈ m
  | [], a, v, c, h => by simpa [Memory.insert] using h
  | d :: m, a, v, c, h => by
    simp only [Memory.insert] at h
    split at h
    · simpa using h
    · rcases List.mem_cons.1 h with rfl | h
      · simp
      · rcases mem_insert m a v c h with h | h <;> simp [h]

theorem insert_wf : ∀ (m : Memory) (a : Nat) (v : Byte), m.wf → (∀ c ∈ m, c.1 ≠ a) → v ≠ Memory.unlisted →
    (m.insert a v).wf
  | [], a, v, _, _, hv => by simpa [Memory.insert, Memory.wf, Memory.unlisted] using hv
  | d :: m, a, v, h, hn, hv => by
    have hp := List.pairwise_cons.1 h.1
    simp only [Memory.insert]
    split
    · rename_i had
      refine ⟨List.pairwise_cons.2 ⟨fun c hc => ?_, h.1⟩, fun c hc => ?_⟩
      · rcases List.mem_cons.1 hc with rfl | hc
        · exact had
        · exact Nat.lt_trans had (hp.1 c hc)
      · rcases List.mem_cons.1 hc with rfl | hc
        · exact hv
        · exact h.2 c hc
    · rename_i had
      have hda : d.1 < a := by
        have := hn d (by simp)
        omega
      have ih := insert_wf m a v ⟨hp.2, fun c hc => h.2 c (List.mem_cons_of_mem _ hc)⟩
        (fun c hc => hn c (List.mem_cons_of_mem _ hc)) hv
      refine ⟨List.pairwise_cons.2 ⟨fun c hc => ?_, ih.1⟩, fun c hc => ?_⟩
      · rcases mem_insert m a v c hc with rfl | hc
        · exact hda
        · exact hp.1 c hc
      · rcases List.mem_cons.1 hc with rfl | hc
        · exact h.2 _ (by simp)
        · exact ih.2 c hc

/-- A write keeps the canonical form. -/
theorem write_wf (m : Memory) (a : Nat) (v : Byte) (h : m.wf) : (m.write a v).wf := by
  simp only [Memory.write]
  split
  · exact erase_wf m a h
  · rename_i hv
    exact insert_wf _ a v (erase_wf m a h) (erase_not_listed m a) hv

/-- A write at an address below the bound keeps the bound. -/
theorem write_below (m : Memory) (n a : Nat) (v : Byte) (ha : a < n) (h : m.below n) : (m.write a v).below n := by
  intro c hc
  have he : ∀ d ∈ m.erase a, d.1 < n := fun d hd => h d (List.mem_of_mem_filter hd)
  simp only [Memory.write] at hc
  split at hc
  · exact he c hc
  · rcases mem_insert _ a v c hc with rfl | hc
    · exact ha
    · exact he c hc

theorem mem_tabulate (n : Nat) (f : Nat → Byte) (c : Host.Cell) :
    c ∈ Memory.tabulate n f ↔ c.1 < n ∧ f c.1 ≠ Memory.unlisted ∧ c.2 = f c.1 := by
  obtain ⟨a, v⟩ := c
  simp only [Memory.tabulate, List.mem_filterMap, List.mem_range]
  constructor
  · rintro ⟨b, hb, h⟩
    split at h
    · cases h
    · rename_i hf
      simp only [Option.some.injEq, Prod.mk.injEq] at h
      obtain ⟨rfl, rfl⟩ := h
      exact ⟨hb, hf, rfl⟩
  · rintro ⟨ha, hf, hv⟩
    exact ⟨a, ha, by rw [if_neg hf, hv]⟩

/-- A tabulated memory is in canonical form. -/
theorem tabulate_wf (n : Nat) (f : Nat → Byte) : (Memory.tabulate n f).wf := by
  refine ⟨?_, fun c hc => ?_⟩
  · refine List.Pairwise.filterMap _ (R := (· < ·)) ?_ List.pairwise_lt_range
    intro a b hab c hc d hd
    split at hc <;> simp at hc
    split at hd <;> simp at hd
    rw [← hc, ← hd]
    exact hab
  · obtain ⟨_, h2, h3⟩ := (mem_tabulate n f c).1 hc
    rw [h3]
    exact h2

theorem tabulate_below (n : Nat) (f : Nat → Byte) : (Memory.tabulate n f).below n :=
  fun c hc => ((mem_tabulate n f c).1 hc).1

theorem read_of_mem : ∀ (m : Memory) (c : Host.Cell), m.wf → c ∈ m → m.read c.1 = c.2
  | d :: m, c, h, hc => by
    have hp := List.pairwise_cons.1 h.1
    rcases List.mem_cons.1 hc with rfl | hc
    · simp [Memory.read]
    · have : c.1 ≠ d.1 := by
        have := hp.1 c hc
        omega
      rw [Memory.read, if_neg this]
      exact read_of_mem m c ⟨hp.2, fun e he => h.2 e (List.mem_cons_of_mem _ he)⟩ hc

/-- A read of a tabulated memory gives the function's value below the bound. -/
@[simp] theorem read_tabulate (n : Nat) (f : Nat → Byte) (a : Nat) :
    (Memory.tabulate n f).read a = if a < n then f a else Memory.unlisted := by
  by_cases h : a < n ∧ f a ≠ Memory.unlisted
  · rw [read_of_mem _ (a, f a) (tabulate_wf n f) ((mem_tabulate n f _).2 ⟨h.1, h.2, rfl⟩), if_pos h.1]
  · rw [read_of_not_listed _ _ fun c hc hca => ?_]
    · split
      · rename_i ha
        by_contra hne
        exact h ⟨ha, fun e => hne e.symm⟩
      · rfl
    · subst hca
      obtain ⟨h1, h2, _⟩ := (mem_tabulate n f c).1 hc
      exact h ⟨h1, h2⟩

/-- Two memories in canonical form that read alike are equal. -/
theorem wf_ext : ∀ (m m' : Memory), m.wf → m'.wf → (∀ a, m.read a = m'.read a) → m = m'
  | [], [], _, _, _ => rfl
  | [], d :: m', _, h', hr => by
    have := hr d.1
    rw [read_of_mem _ d h' (by simp)] at this
    exact absurd this.symm (h'.2 d (by simp))
  | c :: m, [], h, _, hr => by
    have := hr c.1
    rw [read_of_mem _ c h (by simp)] at this
    exact absurd this (h.2 c (by simp))
  | c :: m, d :: m', h, h', hr => by
    have hp := List.pairwise_cons.1 h.1
    have hp' := List.pairwise_cons.1 h'.1
    have hc := hr c.1
    have hd := hr d.1
    rw [read_of_mem _ c h (by simp)] at hc
    rw [read_of_mem _ d h' (by simp)] at hd
    have hcd : c.1 = d.1 := by
      rcases Nat.lt_trichotomy c.1 d.1 with hlt | heq | hgt
      · exfalso
        rw [read_of_not_listed (d :: m') c.1] at hc
        · exact h.2 c (by simp) hc
        · intro e he
          rcases List.mem_cons.1 he with rfl | he
          · omega
          · have := hp'.1 e he
            omega
      · exact heq
      · exfalso
        rw [read_of_not_listed (c :: m) d.1] at hd
        · exact h'.2 d (by simp) hd.symm
        · intro e he
          rcases List.mem_cons.1 he with rfl | he
          · omega
          · have := hp.1 e he
            omega
    have hv : c.2 = d.2 := by rw [hc, hcd, read_of_mem _ d h' (by simp)]
    obtain rfl : c = d := Prod.ext hcd hv
    congr 1
    refine wf_ext m m' ⟨hp.2, fun e he => h.2 e (List.mem_cons_of_mem _ he)⟩
      ⟨hp'.2, fun e he => h'.2 e (List.mem_cons_of_mem _ he)⟩ fun a => ?_
    by_cases ha : a = c.1
    · subst ha
      rw [read_of_not_listed, read_of_not_listed]
      · intro e he
        have := hp'.1 e he
        omega
      · intro e he
        have := hp.1 e he
        omega
    · have := hr a
      simpa [Memory.read, if_neg ha] using this

/-- A tabulated Grid reads its function at every cell index. -/
@[simp] theorem read_gridOf (f : Nat → Byte) (i : Byte) : (gridOf f).read i.toNat = f i.toNat := by
  have : i.toNat < gridCells := i.isLt
  simp [gridOf, this]

theorem gridOf_wf (f : Nat → Byte) : (gridOf f).wf := tabulate_wf _ f

theorem gridOf_below (f : Nat → Byte) : (gridOf f).below gridCells := tabulate_below _ f

@[simp] theorem read_blankGrid (a : Nat) : blankGrid.read a = 0x00 := rfl

/-- Writing a list of bytes keeps the canonical form. -/
theorem writeList_wf : ∀ (bs : List Byte) (m : Memory) (a : Nat), m.wf → (m.writeList a bs).wf
  | [], _, _, h => h
  | b :: bs, m, a, h => writeList_wf bs (m.write a b) (a + 1) (write_wf m a b h)

theorem read_writeList_before : ∀ (bs : List Byte) (m : Memory) (a b : Nat), b < a →
    (m.writeList a bs).read b = m.read b
  | [], _, _, _, _ => rfl
  | v :: bs, m, a, b, h => by
    rw [Memory.writeList, read_writeList_before bs _ _ _ (by omega), read_write, if_neg (by omega)]

/-- Reading inside a written list of bytes gives its bytes. -/
theorem read_writeList : ∀ (bs : List Byte) (m : Memory) (a k : Nat), k < bs.length →
    (m.writeList a bs).read (a + k) = bs.getD k 0
  | v :: bs, m, a, 0, _ => by
    rw [Memory.writeList, read_writeList_before bs _ _ _ (by omega)]
    simp
  | v :: bs, m, a, k + 1, h => by
    rw [Memory.writeList, show a + (k + 1) = (a + 1) + k by omega,
      read_writeList bs _ _ _ (by simpa using h)]
    rfl

end Sys2Proof.Machine
end

