-- ==== Sys2Proof/Laws/State.lean ====
section
/-! SUPPORT. One lemma per field per update of State, so that no later proof unfolds a record update. -/

namespace Sys2Proof.Machine

variable (s : State)

@[simp] theorem setGrid_grid (g : Memory) : (s.setGrid g).grid = g := rfl
@[simp] theorem setGrid_eff (g : Memory) : (s.setGrid g).eff = s.eff := rfl
@[simp] theorem setGrid_wait (g : Memory) : (s.setGrid g).wait = s.wait := rfl
@[simp] theorem setGrid_pc (g : Memory) : (s.setGrid g).pc = s.pc := rfl
@[simp] theorem setGrid_selL (g : Memory) : (s.setGrid g).selL = s.selL := rfl
@[simp] theorem setGrid_lastTick (g : Memory) : (s.setGrid g).lastTick = s.lastTick := rfl
@[simp] theorem setGrid_mode (g : Memory) : (s.setGrid g).mode = s.mode := rfl
@[simp] theorem setGrid_ctl (g : Memory) : (s.setGrid g).ctl = s.ctl := rfl
@[simp] theorem setGrid_rom (g : Memory) : (s.setGrid g).rom = s.rom := rfl
@[simp] theorem setGrid_params (g : Memory) : (s.setGrid g).params = s.params := rfl
@[simp] theorem setGrid_inputs (g : Memory) : (s.setGrid g).inputs = s.inputs := rfl
@[simp] theorem setGrid_envClock (g : Memory) : (s.setGrid g).envClock = s.envClock := rfl
@[simp] theorem setGrid_drawCount (g : Memory) : (s.setGrid g).drawCount = s.drawCount := rfl
@[simp] theorem setGrid_trace (g : Memory) : (s.setGrid g).trace = s.trace := rfl

@[simp] theorem setEff_grid (v : Byte) : (s.setEff v).grid = s.grid := rfl
@[simp] theorem setEff_eff (v : Byte) : (s.setEff v).eff = v := rfl
@[simp] theorem setEff_wait (v : Byte) : (s.setEff v).wait = s.wait := rfl
@[simp] theorem setEff_pc (v : Byte) : (s.setEff v).pc = s.pc := rfl
@[simp] theorem setEff_selL (v : Byte) : (s.setEff v).selL = s.selL := rfl
@[simp] theorem setEff_lastTick (v : Byte) : (s.setEff v).lastTick = s.lastTick := rfl
@[simp] theorem setEff_mode (v : Byte) : (s.setEff v).mode = s.mode := rfl
@[simp] theorem setEff_ctl (v : Byte) : (s.setEff v).ctl = s.ctl := rfl
@[simp] theorem setEff_rom (v : Byte) : (s.setEff v).rom = s.rom := rfl
@[simp] theorem setEff_params (v : Byte) : (s.setEff v).params = s.params := rfl
@[simp] theorem setEff_inputs (v : Byte) : (s.setEff v).inputs = s.inputs := rfl
@[simp] theorem setEff_envClock (v : Byte) : (s.setEff v).envClock = s.envClock := rfl
@[simp] theorem setEff_drawCount (v : Byte) : (s.setEff v).drawCount = s.drawCount := rfl
@[simp] theorem setEff_trace (v : Byte) : (s.setEff v).trace = s.trace := rfl

@[simp] theorem setWait_grid (v : Word) : (s.setWait v).grid = s.grid := rfl
@[simp] theorem setWait_eff (v : Word) : (s.setWait v).eff = s.eff := rfl
@[simp] theorem setWait_wait (v : Word) : (s.setWait v).wait = v := rfl
@[simp] theorem setWait_pc (v : Word) : (s.setWait v).pc = s.pc := rfl
@[simp] theorem setWait_selL (v : Word) : (s.setWait v).selL = s.selL := rfl
@[simp] theorem setWait_lastTick (v : Word) : (s.setWait v).lastTick = s.lastTick := rfl
@[simp] theorem setWait_mode (v : Word) : (s.setWait v).mode = s.mode := rfl
@[simp] theorem setWait_ctl (v : Word) : (s.setWait v).ctl = s.ctl := rfl
@[simp] theorem setWait_rom (v : Word) : (s.setWait v).rom = s.rom := rfl
@[simp] theorem setWait_params (v : Word) : (s.setWait v).params = s.params := rfl
@[simp] theorem setWait_inputs (v : Word) : (s.setWait v).inputs = s.inputs := rfl
@[simp] theorem setWait_envClock (v : Word) : (s.setWait v).envClock = s.envClock := rfl
@[simp] theorem setWait_drawCount (v : Word) : (s.setWait v).drawCount = s.drawCount := rfl
@[simp] theorem setWait_trace (v : Word) : (s.setWait v).trace = s.trace := rfl

@[simp] theorem setPc_grid (v : Word) : (s.setPc v).grid = s.grid := rfl
@[simp] theorem setPc_eff (v : Word) : (s.setPc v).eff = s.eff := rfl
@[simp] theorem setPc_wait (v : Word) : (s.setPc v).wait = s.wait := rfl
@[simp] theorem setPc_pc (v : Word) : (s.setPc v).pc = v := rfl
@[simp] theorem setPc_selL (v : Word) : (s.setPc v).selL = s.selL := rfl
@[simp] theorem setPc_lastTick (v : Word) : (s.setPc v).lastTick = s.lastTick := rfl
@[simp] theorem setPc_mode (v : Word) : (s.setPc v).mode = s.mode := rfl
@[simp] theorem setPc_ctl (v : Word) : (s.setPc v).ctl = s.ctl := rfl
@[simp] theorem setPc_rom (v : Word) : (s.setPc v).rom = s.rom := rfl
@[simp] theorem setPc_params (v : Word) : (s.setPc v).params = s.params := rfl
@[simp] theorem setPc_inputs (v : Word) : (s.setPc v).inputs = s.inputs := rfl
@[simp] theorem setPc_envClock (v : Word) : (s.setPc v).envClock = s.envClock := rfl
@[simp] theorem setPc_drawCount (v : Word) : (s.setPc v).drawCount = s.drawCount := rfl
@[simp] theorem setPc_trace (v : Word) : (s.setPc v).trace = s.trace := rfl

@[simp] theorem setSelL_grid (n : Nat) : (s.setSelL n).grid = s.grid := rfl
@[simp] theorem setSelL_eff (n : Nat) : (s.setSelL n).eff = s.eff := rfl
@[simp] theorem setSelL_wait (n : Nat) : (s.setSelL n).wait = s.wait := rfl
@[simp] theorem setSelL_pc (n : Nat) : (s.setSelL n).pc = s.pc := rfl
@[simp] theorem setSelL_selL (n : Nat) : (s.setSelL n).selL = n := rfl
@[simp] theorem setSelL_lastTick (n : Nat) : (s.setSelL n).lastTick = s.lastTick := rfl
@[simp] theorem setSelL_mode (n : Nat) : (s.setSelL n).mode = s.mode := rfl
@[simp] theorem setSelL_ctl (n : Nat) : (s.setSelL n).ctl = s.ctl := rfl
@[simp] theorem setSelL_rom (n : Nat) : (s.setSelL n).rom = s.rom := rfl
@[simp] theorem setSelL_params (n : Nat) : (s.setSelL n).params = s.params := rfl
@[simp] theorem setSelL_inputs (n : Nat) : (s.setSelL n).inputs = s.inputs := rfl
@[simp] theorem setSelL_envClock (n : Nat) : (s.setSelL n).envClock = s.envClock := rfl
@[simp] theorem setSelL_drawCount (n : Nat) : (s.setSelL n).drawCount = s.drawCount := rfl
@[simp] theorem setSelL_trace (n : Nat) : (s.setSelL n).trace = s.trace := rfl

@[simp] theorem setLastTick_grid (t : Nat) : (s.setLastTick t).grid = s.grid := rfl
@[simp] theorem setLastTick_eff (t : Nat) : (s.setLastTick t).eff = s.eff := rfl
@[simp] theorem setLastTick_wait (t : Nat) : (s.setLastTick t).wait = s.wait := rfl
@[simp] theorem setLastTick_pc (t : Nat) : (s.setLastTick t).pc = s.pc := rfl
@[simp] theorem setLastTick_selL (t : Nat) : (s.setLastTick t).selL = s.selL := rfl
@[simp] theorem setLastTick_lastTick (t : Nat) : (s.setLastTick t).lastTick = t := rfl
@[simp] theorem setLastTick_mode (t : Nat) : (s.setLastTick t).mode = s.mode := rfl
@[simp] theorem setLastTick_ctl (t : Nat) : (s.setLastTick t).ctl = s.ctl := rfl
@[simp] theorem setLastTick_rom (t : Nat) : (s.setLastTick t).rom = s.rom := rfl
@[simp] theorem setLastTick_params (t : Nat) : (s.setLastTick t).params = s.params := rfl
@[simp] theorem setLastTick_inputs (t : Nat) : (s.setLastTick t).inputs = s.inputs := rfl
@[simp] theorem setLastTick_envClock (t : Nat) : (s.setLastTick t).envClock = s.envClock := rfl
@[simp] theorem setLastTick_drawCount (t : Nat) : (s.setLastTick t).drawCount = s.drawCount := rfl
@[simp] theorem setLastTick_trace (t : Nat) : (s.setLastTick t).trace = s.trace := rfl

@[simp] theorem setCtl_grid (c : Ctl) : (s.setCtl c).grid = s.grid := rfl
@[simp] theorem setCtl_eff (c : Ctl) : (s.setCtl c).eff = s.eff := rfl
@[simp] theorem setCtl_wait (c : Ctl) : (s.setCtl c).wait = s.wait := rfl
@[simp] theorem setCtl_pc (c : Ctl) : (s.setCtl c).pc = s.pc := rfl
@[simp] theorem setCtl_selL (c : Ctl) : (s.setCtl c).selL = s.selL := rfl
@[simp] theorem setCtl_lastTick (c : Ctl) : (s.setCtl c).lastTick = s.lastTick := rfl
@[simp] theorem setCtl_mode (c : Ctl) : (s.setCtl c).mode = s.mode := rfl
@[simp] theorem setCtl_ctl (c : Ctl) : (s.setCtl c).ctl = c := rfl
@[simp] theorem setCtl_rom (c : Ctl) : (s.setCtl c).rom = s.rom := rfl
@[simp] theorem setCtl_params (c : Ctl) : (s.setCtl c).params = s.params := rfl
@[simp] theorem setCtl_inputs (c : Ctl) : (s.setCtl c).inputs = s.inputs := rfl
@[simp] theorem setCtl_envClock (c : Ctl) : (s.setCtl c).envClock = s.envClock := rfl
@[simp] theorem setCtl_drawCount (c : Ctl) : (s.setCtl c).drawCount = s.drawCount := rfl
@[simp] theorem setCtl_trace (c : Ctl) : (s.setCtl c).trace = s.trace := rfl

@[simp] theorem setInputs_grid (i : Inputs) : (s.setInputs i).grid = s.grid := rfl
@[simp] theorem setInputs_eff (i : Inputs) : (s.setInputs i).eff = s.eff := rfl
@[simp] theorem setInputs_wait (i : Inputs) : (s.setInputs i).wait = s.wait := rfl
@[simp] theorem setInputs_pc (i : Inputs) : (s.setInputs i).pc = s.pc := rfl
@[simp] theorem setInputs_selL (i : Inputs) : (s.setInputs i).selL = s.selL := rfl
@[simp] theorem setInputs_lastTick (i : Inputs) : (s.setInputs i).lastTick = s.lastTick := rfl
@[simp] theorem setInputs_mode (i : Inputs) : (s.setInputs i).mode = s.mode := rfl
@[simp] theorem setInputs_ctl (i : Inputs) : (s.setInputs i).ctl = s.ctl := rfl
@[simp] theorem setInputs_rom (i : Inputs) : (s.setInputs i).rom = s.rom := rfl
@[simp] theorem setInputs_params (i : Inputs) : (s.setInputs i).params = s.params := rfl
@[simp] theorem setInputs_inputs (i : Inputs) : (s.setInputs i).inputs = i := rfl
@[simp] theorem setInputs_envClock (i : Inputs) : (s.setInputs i).envClock = s.envClock := rfl
@[simp] theorem setInputs_drawCount (i : Inputs) : (s.setInputs i).drawCount = s.drawCount := rfl
@[simp] theorem setInputs_trace (i : Inputs) : (s.setInputs i).trace = s.trace := rfl

@[simp] theorem setEnvClock_grid (n : Nat) : (s.setEnvClock n).grid = s.grid := rfl
@[simp] theorem setEnvClock_eff (n : Nat) : (s.setEnvClock n).eff = s.eff := rfl
@[simp] theorem setEnvClock_wait (n : Nat) : (s.setEnvClock n).wait = s.wait := rfl
@[simp] theorem setEnvClock_pc (n : Nat) : (s.setEnvClock n).pc = s.pc := rfl
@[simp] theorem setEnvClock_selL (n : Nat) : (s.setEnvClock n).selL = s.selL := rfl
@[simp] theorem setEnvClock_lastTick (n : Nat) : (s.setEnvClock n).lastTick = s.lastTick := rfl
@[simp] theorem setEnvClock_mode (n : Nat) : (s.setEnvClock n).mode = s.mode := rfl
@[simp] theorem setEnvClock_ctl (n : Nat) : (s.setEnvClock n).ctl = s.ctl := rfl
@[simp] theorem setEnvClock_rom (n : Nat) : (s.setEnvClock n).rom = s.rom := rfl
@[simp] theorem setEnvClock_params (n : Nat) : (s.setEnvClock n).params = s.params := rfl
@[simp] theorem setEnvClock_inputs (n : Nat) : (s.setEnvClock n).inputs = s.inputs := rfl
@[simp] theorem setEnvClock_envClock (n : Nat) : (s.setEnvClock n).envClock = n := rfl
@[simp] theorem setEnvClock_drawCount (n : Nat) : (s.setEnvClock n).drawCount = s.drawCount := rfl
@[simp] theorem setEnvClock_trace (n : Nat) : (s.setEnvClock n).trace = s.trace := rfl

@[simp] theorem setDrawCount_grid (n : Nat) : (s.setDrawCount n).grid = s.grid := rfl
@[simp] theorem setDrawCount_eff (n : Nat) : (s.setDrawCount n).eff = s.eff := rfl
@[simp] theorem setDrawCount_wait (n : Nat) : (s.setDrawCount n).wait = s.wait := rfl
@[simp] theorem setDrawCount_pc (n : Nat) : (s.setDrawCount n).pc = s.pc := rfl
@[simp] theorem setDrawCount_selL (n : Nat) : (s.setDrawCount n).selL = s.selL := rfl
@[simp] theorem setDrawCount_lastTick (n : Nat) : (s.setDrawCount n).lastTick = s.lastTick := rfl
@[simp] theorem setDrawCount_mode (n : Nat) : (s.setDrawCount n).mode = s.mode := rfl
@[simp] theorem setDrawCount_ctl (n : Nat) : (s.setDrawCount n).ctl = s.ctl := rfl
@[simp] theorem setDrawCount_rom (n : Nat) : (s.setDrawCount n).rom = s.rom := rfl
@[simp] theorem setDrawCount_params (n : Nat) : (s.setDrawCount n).params = s.params := rfl
@[simp] theorem setDrawCount_inputs (n : Nat) : (s.setDrawCount n).inputs = s.inputs := rfl
@[simp] theorem setDrawCount_envClock (n : Nat) : (s.setDrawCount n).envClock = s.envClock := rfl
@[simp] theorem setDrawCount_drawCount (n : Nat) : (s.setDrawCount n).drawCount = n := rfl
@[simp] theorem setDrawCount_trace (n : Nat) : (s.setDrawCount n).trace = s.trace := rfl

@[simp] theorem record_grid (e : Event) : (s.record e).grid = s.grid := rfl
@[simp] theorem record_eff (e : Event) : (s.record e).eff = s.eff := rfl
@[simp] theorem record_wait (e : Event) : (s.record e).wait = s.wait := rfl
@[simp] theorem record_pc (e : Event) : (s.record e).pc = s.pc := rfl
@[simp] theorem record_selL (e : Event) : (s.record e).selL = s.selL := rfl
@[simp] theorem record_lastTick (e : Event) : (s.record e).lastTick = s.lastTick := rfl
@[simp] theorem record_mode (e : Event) : (s.record e).mode = s.mode := rfl
@[simp] theorem record_ctl (e : Event) : (s.record e).ctl = s.ctl := rfl
@[simp] theorem record_rom (e : Event) : (s.record e).rom = s.rom := rfl
@[simp] theorem record_params (e : Event) : (s.record e).params = s.params := rfl
@[simp] theorem record_inputs (e : Event) : (s.record e).inputs = s.inputs := rfl
@[simp] theorem record_envClock (e : Event) : (s.record e).envClock = s.envClock := rfl
@[simp] theorem record_drawCount (e : Event) : (s.record e).drawCount = s.drawCount := rfl
@[simp] theorem record_trace (e : Event) : (s.record e).trace = e :: s.trace := rfl

end Sys2Proof.Machine
end

