-- ==== Sys2Proof/Laws/Ops.lean ====
section
/-! SUPPORT. For each shared operation one lemma that says once everything it does; cited instead of unfolding. -/

namespace Sys2Proof.Machine

/-! ### Cells and the fall-through -/

@[simp] theorem cell_writeCell (s : State) (i j : Byte) (v : Byte) :
    (s.writeCell i v).cell j = if j = i then v else s.cell j := by
  simp [State.writeCell, State.cell, BitVec.toNat_inj]

@[simp] theorem cell_setGrid_gridOf (s : State) (f : Nat → Byte) (i : Byte) :
    (s.setGrid (gridOf f)).cell i = f i.toNat := by
  simp [State.cell]

theorem writeCell_eq (s : State) (i v : Byte) : s.writeCell i v = { s with grid := s.grid.write i.toNat v } := rfl

theorem advancePc_eq (s : State) (f : Format) :
    s.advancePc f = { s with pc := s.pc + BitVec.ofNat 16 f.length } := rfl

/-! ### The program space -/

/-- `ROM` reads NUL at and past PROG_SIZE. -/
theorem rom_read_past_end (r : Rom) (a : Nat) (h : r.size ≤ a) : r.read a = 0x00 := by
  simp [Rom.read, Nat.not_lt.2 h]

/-- The k-th byte of the fetch window is the Program's byte at PC + k. -/
theorem byteAt_fetchBytes (s : State) (k : Nat) (h : k < 5) :
    byteAt s.fetchBytes k = s.rom.read (s.pc.toNat + k) := by
  simp [byteAt, State.fetchBytes, List.getD, h]

/-- A fetch at or past PROG_SIZE is NUL. -/
theorem fetch_past_end (s : State) (h : s.rom.size ≤ s.pc.toNat) : s.fetch = .nul := by
  have h0 : byteAt s.fetchBytes 0 = 0x00 := by
    rw [byteAt_fetchBytes s 0 (by decide), rom_read_past_end _ _ (by omega)]
  simp [State.fetch, decode, h0]

/-- The scan ends at 0 or at an offset that is not past the first NUL, so never past PROG_SIZE. -/
theorem scan_le (r : Rom) : ∀ (fuel a left : Nat), a ≤ r.size → r.scan fuel a left ≤ r.size
  | 0, a, 0, h => by simpa [Rom.scan] using h
  | _ + 1, a, 0, h => by simpa [Rom.scan] using h
  | 0, _, _ + 1, _ => by simp [Rom.scan]
  | fuel + 1, a, left + 1, h => by
    simp only [Rom.scan]
    split
    · omega
    · rename_i hne
      have ha : a < r.size := by
        by_contra hge
        exact hne (rom_read_past_end r a (by omega))
      split <;> exact scan_le r fuel _ _ ha

theorem sequenceStart_le (r : Rom) (n : Nat) : r.sequenceStart n ≤ r.size := scan_le r _ _ _ (Nat.zero_le _)

/-- Placing a word keeps the Program's canonical form. -/
theorem place_wf (r : Rom) (a nbits w : Nat) (h : r.bytes.wf) : (r.place a nbits w).bytes.wf :=
  writeList_wf _ _ _ h

/-! ### Selection, restart, push, reset, powerdown, environment -/

theorem select_eq (s : State) (n : Nat) :
    s.select n = { s with pc := BitVec.ofNat 16 (s.rom.sequenceStart n), wait := 0x0000, selL := n } := rfl

theorem returnFromAdvance_eq (s : State) :
    s.returnFromAdvance = { s with ctl := if s.lastTick % 4 = 0 then .fade else .top } := rfl

theorem returnFromAdvance_ctl (s : State) :
    s.returnFromAdvance.ctl = .fade ∧ s.lastTick % 4 = 0 ∨ s.returnFromAdvance.ctl = .top ∧ s.lastTick % 4 ≠ 0 := by
  by_cases h : s.lastTick % 4 = 0 <;> simp [State.returnFromAdvance, h]

theorem restart_eq (s : State) (c : RestartCause) :
    s.restart c =
      { s with
        pc := BitVec.ofNat 16 (s.rom.sequenceStart s.selL), wait := 0x0000
        ctl := if s.lastTick % 4 = 0 then .fade else .top
        trace := .restart c s.pc :: s.trace } := rfl

theorem renderPush_eq (s : State) : s.renderPush = { s with trace := .renderPush s.grid :: s.trace } := rfl

theorem powerdown_eq (s : State) : s.powerdown = { s with grid := blankGrid, ctl := .down } := rfl

theorem coreReset_eq (s : State) :
    s.coreReset = { s with grid := blankGrid, eff := 0, wait := 0, pc := 0, selL := 0, lastTick := s.inputs.tick, ctl := .top } :=
  rfl

/-- The environment writes the input lines and the model's clock, nothing else. -/
theorem environment_eq (s : State) :
    s.environment =
      { s with inputs := nextInputs s.params s.ctl s.lastTick s.envClock s.inputs, envClock := s.envClock + 1 } := rfl

theorem nextTick_lt (p : Params) (l t n : Nat) (h : t < 2 ^ p.tickW) : nextTick p l t n < 2 ^ p.tickW := by
  have : 0 < 2 ^ p.tickW := Nat.two_pow_pos _
  simp only [nextTick]
  split
  · split
    · exact Nat.mod_lt _ this
    · exact h
  · exact Nat.mod_lt _ this

/-! ### The scheduler's steps -/

/-- What `wait_tick()` of the outer loop does: it holds, or it consumes one transition. -/
theorem waitTick_cases (s : State) :
    s.inputs.tick = s.lastTick ∧ s.waitTick = { s with ctl := .holdTick }
    ∨ s.inputs.tick ≠ s.lastTick ∧ s.mode = .interp ∧ s.waitTick = { s with lastTick := s.inputs.tick, ctl := .advance }
    ∨ s.inputs.tick ≠ s.lastTick ∧ s.mode = .automaton
      ∧ s.waitTick = { s with lastTick := s.inputs.tick, ctl := .holdPhase } := by
  by_cases h : s.inputs.tick = s.lastTick
  · exact .inl ⟨h, by simp [State.waitTick, h, State.setCtl]⟩
  · cases hm : s.mode
    · exact .inr (.inl ⟨h, rfl, by simp [State.waitTick, h, hm, State.setCtl, State.setLastTick]⟩)
    · exact .inr (.inr ⟨h, rfl, by simp [State.waitTick, h, hm, State.setCtl, State.setLastTick]⟩)

/-- What the wait stage does: start the run stage, stay halted, wait on, or finish the wait and start the run stage. -/
theorem waitStage_cases (s : State) :
    s.wait = 0x0000 ∧ s.waitStage = { s with ctl := .run }
    ∨ s.wait = waitHalt ∧ s.waitStage = s.returnFromAdvance
    ∨ s.wait = 0x0001 ∧ s.waitStage = { s with wait := 0x0000, ctl := .run }
    ∨ s.wait ≠ 0x0000 ∧ s.wait ≠ waitHalt ∧ s.wait ≠ 0x0001
      ∧ s.waitStage = ({ s with wait := s.wait - 1 } : State).returnFromAdvance := by
  by_cases h0 : s.wait = 0x0000
  · exact .inl ⟨h0, by simp [State.waitStage, h0, State.setCtl]⟩
  · by_cases hh : s.wait = waitHalt
    · exact .inr (.inl ⟨hh, by simp [State.waitStage, hh, waitHalt]⟩)
    · by_cases h1 : s.wait = 0x0001
      · exact .inr (.inr (.inl ⟨h1, by simp [State.waitStage, h1, waitHalt, State.setCtl, State.setWait]⟩))
      · refine .inr (.inr (.inr ⟨h0, hh, h1, ?_⟩))
        have : s.wait - 1 ≠ 0x0000 := fun e => h1 (by
          have := congrArg (· + 1#16) e
          simpa using this)
        rw [State.waitStage, if_neg h0, if_neg hh, if_neg this]
        rfl

end Sys2Proof.Machine
end

