-- ==== Sys2Proof/Laws/Grid.lean ====
section
/-! SUPPORT. What the Grid operations read as, cell by cell, and that each keeps the canonical form and the bound. -/

namespace Sys2Proof.Machine

/-! ### Shifts (41_grid_ops.md R104-R107) -/

theorem read_shiftLeft (g : Memory) (k : Nat) (i : Byte) :
    (shiftLeft g k).read i.toNat = if i.toNat % 16 + k ≤ 15 then g.read (i.toNat + k) else g.read i.toNat := by
  exact read_gridOf _ i

theorem read_shiftRight (g : Memory) (k : Nat) (i : Byte) :
    (shiftRight g k).read i.toNat = if k ≤ i.toNat % 16 then g.read (i.toNat - k) else g.read i.toNat := by
  exact read_gridOf _ i

theorem read_shiftUp (g : Memory) (k : Nat) (i : Byte) :
    (shiftUp g k).read i.toNat = if i.toNat + 16 * k ≤ 255 then g.read (i.toNat + 16 * k) else g.read i.toNat := by
  exact read_gridOf _ i

theorem read_shiftDown (g : Memory) (k : Nat) (i : Byte) :
    (shiftDown g k).read i.toNat = if 16 * k ≤ i.toNat then g.read (i.toNat - 16 * k) else g.read i.toNat := by
  exact read_gridOf _ i

/-- The four turns of `pan` in PAN_ORDER. -/
theorem pan_eq (v : Pan) (g : Memory) :
    pan v g = panDir v (panDir v (panDir v (panDir v g .down) .right) .up) .left := rfl

theorem shift_keeps (d : Dir) (g : Memory) (k : Nat) : (shift d g k).wf ∧ (shift d g k).below gridCells := by
  cases d <;> simp only [shift, shiftDown, shiftRight, shiftUp, shiftLeft] <;>
    exact ⟨gridOf_wf _, gridOf_below _⟩

theorem panDir_keeps (v : Pan) (g : Memory) (d : Dir) (h : g.wf ∧ g.below gridCells) :
    (panDir v g d).wf ∧ (panDir v g d).below gridCells := by
  simp only [panDir]
  split
  · exact shift_keeps d g _
  · exact h

theorem pan_keeps (v : Pan) (g : Memory) (h : g.wf ∧ g.below gridCells) : (pan v g).wf ∧ (pan v g).below gridCells := by
  rw [pan_eq]
  exact panDir_keeps _ _ _ (panDir_keeps _ _ _ (panDir_keeps _ _ _ (panDir_keeps _ _ _ h)))

/-! ### Fade (42_fade.md R126) -/

theorem read_fadeGrid (g : Memory) (i : Byte) :
    (fadeGrid g).read i.toNat = if cellAuto (g.read i.toNat) then fadeCell (g.read i.toNat) else g.read i.toNat := by
  exact read_gridOf _ i

theorem fadeGrid_keeps (g : Memory) : (fadeGrid g).wf ∧ (fadeGrid g).below gridCells := ⟨gridOf_wf _, gridOf_below _⟩

/-! ### Automaton (43_automaton.md R141, R142, R144) -/

theorem read_decayCell (g : Memory) (i a : Nat) :
    (decayCell g i).read a = if a = i ∧ g.read i ≠ 0 then g.read i - 1 else g.read a := by
  simp only [decayCell]
  split
  · rename_i h
    simp [h]
  · rename_i h
    rw [read_write]
    by_cases ha : a = i
    · rw [if_pos ha, if_pos ⟨ha, h⟩]
    · rw [if_neg ha, if_neg fun e => ha e.1]

theorem write_keeps (g : Memory) (a : Nat) (v : Byte) (ha : a < gridCells) (h : g.wf ∧ g.below gridCells) :
    (g.write a v).wf ∧ (g.write a v).below gridCells :=
  ⟨write_wf _ _ _ h.1, write_below _ _ _ _ ha h.2⟩

theorem decayCell_keeps (g : Memory) (i : Nat) (hi : i < gridCells) (h : g.wf ∧ g.below gridCells) :
    (decayCell g i).wf ∧ (decayCell g i).below gridCells := by
  simp only [decayCell]
  split
  · exact h
  · exact write_keeps _ _ _ hi h

/-- One turn of the fall loop changes cell i and the cell below it only. -/
theorem read_fallCell (g : Memory) (i a : Nat) :
    (fallCell g i).read a =
      if g.read i = 0 then g.read a
      else if a = i then g.read i - 1
      else if a = i + 16 then byteMax (g.read (i + 16)) (g.read i)
      else g.read a := by
  simp only [fallCell, gridCols]
  split
  · rfl
  · by_cases h1 : a = i
    · simp [h1]
    · by_cases h2 : a = i + 16 <;> simp [h1, h2]

theorem fallCell_keeps (g : Memory) (i : Nat) (hi : i < 240) (h : g.wf ∧ g.below gridCells) :
    (fallCell g i).wf ∧ (fallCell g i).below gridCells := by
  simp only [fallCell]
  split
  · exact h
  · exact write_keeps _ _ _ (by simp only [gridCells, gridCols]; omega)
      (write_keeps _ _ _ (by simp only [gridCells]; omega) h)

theorem fallBelow_keeps : ∀ (n : Nat) (g : Memory), n ≤ 240 → g.wf ∧ g.below gridCells →
    (fallBelow n g).wf ∧ (fallBelow n g).below gridCells
  | 0, _, _, h => h
  | n + 1, g, hn, h => fallBelow_keeps n _ (by omega) (fallCell_keeps g n (by omega) h)

theorem foldl_decay_keeps : ∀ (l : List Nat) (g : Memory), (∀ i ∈ l, i < gridCells) → g.wf ∧ g.below gridCells →
    (l.foldl decayCell g).wf ∧ (l.foldl decayCell g).below gridCells
  | [], _, _, h => h
  | i :: l, g, hl, h =>
    foldl_decay_keeps l _ (fun j hj => hl j (List.mem_cons_of_mem _ hj)) (decayCell_keeps g i (hl i (by simp)) h)

theorem injectSparks_keeps : ∀ (sparks : List (Option Nibble)) (c : Nat) (g : Memory),
    c + sparks.length ≤ gridCells → g.wf ∧ g.below gridCells →
    (injectSparks c sparks g).wf ∧ (injectSparks c sparks g).below gridCells
  | [], _, _, _, h => h
  | none :: sparks, c, g, hl, h => injectSparks_keeps sparks (c + 1) g (by simp at hl; omega) h
  | some l :: sparks, c, g, hl, h =>
    injectSparks_keeps sparks (c + 1) _ (by simp at hl; omega) (write_keeps _ _ _ (by simp at hl; omega) h)

theorem drawSparks_length (nd : Nat) : ∀ (cols k : Nat), (drawSparks nd cols k).1.length = cols
  | 0, _ => rfl
  | cols + 1, k => by simp [drawSparks, drawSparks_length nd cols]

/-- One update keeps the canonical form and the bound. -/
theorem updateGrid_keeps (sparks : List (Option Nibble)) (g : Memory) (hs : sparks.length ≤ gridCells)
    (h : g.wf ∧ g.below gridCells) : (updateGrid sparks g).wf ∧ (updateGrid sparks g).below gridCells := by
  refine injectSparks_keeps sparks 0 _ (by simpa using hs) (fallBelow_keeps 240 _ (Nat.le_refl _) ?_)
  exact foldl_decay_keeps _ g (by decide) h

end Sys2Proof.Machine
end

