-- ==== Sys2Proof/Laws/PerInstr.lean ====
section
/-! SUPPORT. What holds of every instruction as syntax, one lemma per constructor. -/

namespace Sys2Proof.Laws

/-- An instruction's encoding has the length of its format (30_encoding.md R60). -/
def EncodedLength.Statement (i : Instr) : Prop := (encode i).length = i.length

theorem EncodedLength.e (v : Byte) : EncodedLength.Statement (.e v) := rfl
theorem EncodedLength.s (v : Byte) : EncodedLength.Statement (.s v) := rfl
theorem EncodedLength.a : EncodedLength.Statement .a := rfl
theorem EncodedLength.p (v : Pan) : EncodedLength.Statement (.p v) := rfl
theorem EncodedLength.w (v : Word) : EncodedLength.Statement (.w v) := rfl
theorem EncodedLength.x : EncodedLength.Statement .x := rfl
theorem EncodedLength.nul : EncodedLength.Statement .nul := rfl
theorem EncodedLength.invalid (b : Byte) : EncodedLength.Statement (.invalid b) := rfl

end Sys2Proof.Laws
end

