-- ==== Sys2Proof/Tests/Slice0.lean ====
section
/-! SUPPORT. The author's own tests: expected values come from the spec's tables and vectors (named at each test), and for
every statement with hypotheses a state that meets them. -/

open Sys2Proof Sys2Proof.Machine

namespace Sys2Proof.Tests

-- One declaration at a time: many kernel evaluations at once need more threads than the memory limit allows.
set_option Elab.async false

/-- One value of the state an outcome goes on to. -/
def after {α : Type} (o : Host.Outcome State Fault Refusal) (f : State → α) : Option α :=
  match o with
  | .next s => some (f s)
  | .fault _ => none
  | .refused _ => none

/-- A machine in the run stage whose Program is the given bytes. -/
def running (p : List Byte) : State :=
  { State.reset with rom := { size := p.length, bytes := Memory.writeList [] 0 p }, ctl := .run }

/-- A machine at a controller position, otherwise as `running` on the one-byte Program. -/
def parked (c : Ctl) : State := { State.reset with ctl := c }

/-- A Grid of the listed cells, whose others are 0x00. -/
def cells (l : List (Nat × Byte)) : Memory := l.foldl (fun g c => g.write c.1 c.2) []

/-- `` `e01s00xe02s00xe03s00` `` and the final NUL: program L3-5 of 95_test_vectors.md. -/
def threeSequences : List Byte :=
  [0x65, 0x30, 0x31, 0x73, 0x30, 0x30, 0x78, 0x65, 0x30, 0x32, 0x73, 0x30, 0x30, 0x78, 0x65, 0x30, 0x33, 0x73, 0x30, 0x30, 0x00]

/-! ### WellFormed: every ill-formed term is refused -/

theorem test_wellformed_refuses_named_opcodes :
    ∀ b ∈ namedOpcodes, (Instr.invalid b).wellFormed = false := by decide

theorem test_wellformed_accepts : (Instr.invalid 0x71).wellFormed = true ∧ (Instr.e 0xFF).wellFormed = true := by decide

/-! ### Decode: words written out from 30_encoding.md R60, R61, R63, R64, R67 -/

theorem test_decode_e : decode [0x65, 0x30, 0x66] = .e 0x0F := by decide -- V-D1, V-E1
theorem test_decode_s : decode [0x73, 0x31, 0x47] = .s 0x10 := by decide -- V-D2, V-S2
theorem test_decode_a : decode [0x61, 0x65, 0x65] = .a := by decide -- V-D3
theorem test_decode_p : decode [0x70, 0x61, 0x37] = .p ⟨true, false, true, false, 7⟩ := by decide -- V-D4; 0xA7
theorem test_decode_w : decode [0x77, 0x31, 0x32, 0x33, 0x34] = .w 0x1234 := by decide -- V-D5, V-H9
theorem test_decode_x : decode [0x78] = .x := by decide -- V-D6
theorem test_decode_nul : decode [0x00] = .nul := by decide -- V-D7
theorem test_decode_invalid :
    ∀ b ∈ [0x45, 0x53, 0x41, 0x50, 0x57, 0x58, 0x30, 0x20, 0x0A, 0x71, 0xFF], decode [b] = .invalid b := by
  decide -- V-D8, V-D9

/-- V-H1 to V-H5. -/
theorem test_hex_digits :
    [0x30, 0x39, 0x61, 0x46, 0x67, 0x47, 0x78, 0x00, 0x20].map hexDigit = [0, 9, 10, 15, 0, 0, 0, 0, 0] := by decide

/-- V-H6 to V-H9. -/
theorem test_hex_operands :
    hex2 0x30 0x66 = 0x0F ∧ hex2 0x30 0x46 = 0x0F ∧ hex2 0x66 0x30 = 0xF0 ∧ hex2 0x67 0x35 = 0x05 ∧ hex2 0x35 0x67 = 0x50
    ∧ hex4 0x46 0x46 0x46 0x46 = 0xFFFF ∧ hex4 0x7A 0x7A 0x7A 0x7A = 0 ∧ hex4 0x30 0x30 0x30 0x78 = 0 := by decide

/-- The bytes an author writes (R72): `w0005`, `pf1`, `e0f`. -/
theorem test_encode :
    encode (.w 0x0005) = [0x77, 0x30, 0x30, 0x30, 0x35] ∧ encode (.p ⟨true, true, true, true, 1⟩) = [0x70, 0x66, 0x31]
    ∧ encode (.e 0x0F) = [0x65, 0x30, 0x66] := by decide

/-- spec/opcode_table.json numbers bit 0 as the least significant bit of the first byte. -/
theorem test_table_words :
    decodeTableWord 24 0x663065 = some (.e 0x0F) ∧ decodeTableWord 8 0x65 = some (.e 0x00)
    ∧ decodeTableWord 40 0x3433323177 = some (.w 0x1234) := by decide

theorem test_fetch_word_runs : after (step (State.reset.withFetchWord 24 0x663065)) (·.eff) = some 0x0F := by
  decide +kernel

/-! ### One small step of each instruction -/

theorem test_e : after (step (running [0x65, 0x30, 0x66, 0x00])) (fun t => (t.eff, t.pc)) = some (0x0F, 3) := by
  decide +kernel -- V-E1
theorem test_e_invalid_digit : after (step (running [0x65, 0x67, 0x35, 0x00])) (·.eff) = some 0x05 := by
  decide +kernel -- V-E3
theorem test_s : after (step { running [0x73, 0x66, 0x66, 0x00] with eff := 0x21 })
    (fun t => (t.grid.read 255, t.grid.read 254, t.pc)) = some (0x21, 0, 3) := by decide +kernel -- V-S1
theorem test_s_overwrites : after (step { running [0x73, 0x30, 0x30, 0x00] with eff := 0x07, grid := [(0, 0x3E)] })
    (·.grid) = some [(0, 0x07)] := by decide +kernel -- V-S3
theorem test_a : after (step { running [0x61, 0x00] with eff := 0x03 })
    (fun t => (t.grid.read 0, t.grid.read 255, t.pc)) = some (0x03, 0x03, 1) := by decide +kernel -- V-A-1
theorem test_a_blanks : after (step { running [0x61, 0x00] with grid := [(7, 0x15)] }) (·.grid) = some [] := by
  decide +kernel -- V-A-3
/-- V-P7: down, right, up, left in turn bring the cell back (V-P22 shows what one common snapshot would give). -/
theorem test_p_all_four : after (step { running [0x70, 0x46, 0x31, 0x00] with grid := [(85, 7)] })
    (fun t => (t.grid, t.pc)) = some ([(85, 7)], 3) := by decide +kernel
/-- L3-3: DOWN and LEFT by 1 from G[0] = 5, G[15] = 9. -/
theorem test_p_down_left : after (step { running [0x70, 0x39, 0x31, 0x00] with grid := [(0, 5), (15, 9)] })
    (·.grid) = some [(14, 9), (15, 9), (30, 9), (31, 9)] := by decide +kernel
/-- V-W1, V-W2: `w0000` falls through, `w0001` ends the call. LAST_TICK = 1, so no fade follows. -/
theorem test_w : after (step { running [0x77, 0x30, 0x30, 0x30, 0x31, 0x00] with lastTick := 1 })
    (fun t => (t.wait, t.pc, t.ctl)) = some (1, 5, .top) := by decide +kernel
theorem test_w_zero : after (step { running [0x77, 0x7A, 0x7A, 0x7A, 0x7A, 0x00] with lastTick := 1 })
    (fun t => (t.wait, t.pc, t.ctl)) = some (0, 5, .run) := by decide +kernel -- V-W5
theorem test_x : after (step { running [0x78, 0x65, 0x30, 0x35, 0x00] with selL := 1, lastTick := 4 })
    (fun t => (t.pc, t.wait, t.selL, t.ctl)) = some (1, 0, 1, .fade) := by decide +kernel -- V-X2
theorem test_nul : after (step { running threeSequences with pc := 20, selL := 2, lastTick := 1, eff := 3 })
    (fun t => (t.pc, t.eff, t.ctl)) = some (14, 3, .top) := by decide +kernel -- L3-5
/-- V-N2: a fetch past the end of the Program is NUL. -/
theorem test_nul_past_end : after (step { running [0x65, 0x30, 0x35] with pc := 3, lastTick := 1 })
    (fun t => (t.pc, t.trace)) = some (0, [.restart .endNul 3]) := by decide +kernel
theorem test_invalid : after (step { running [0x65, 0x30, 0x37, 0x71, 0x00] with pc := 3, eff := 7, lastTick := 1 })
    (fun t => (t.pc, t.eff, t.trace)) = some (0, 7, [.restart (.invalid 0x71) 3]) := by decide +kernel -- V-I1

/-! ### Selection, fade, automaton, scheduler -/

/-- V-SEL1 to V-SEL5. -/
theorem test_select : [0, 1, 2, 3, 7].map (running threeSequences).rom.sequenceStart = [0, 7, 14, 0, 0] := by decide +kernel
/-- V-SEL6: a 0x78 inside an operand counts. -/
theorem test_select_counts_operands :
    (running [0x65, 0x78, 0x78, 0x73, 0x30, 0x30, 0x78, 0x00]).rom.sequenceStart 1 = 2 := by decide +kernel

/-- V-F1 to V-F13. -/
theorem test_fade : [0x3E, 0x3F, 0x7F, 0x5F, 0x50, 0x70, 0x11, 0x10, 0x9F, 0xF0, 0x90, 0x30].map fadeCell
    = [0x3F, 0x2F, 0x5F, 0x5E, 0x70, 0x71, 0x10, 0x00, 0x9E, 0xF1, 0x80, 0x31] := by decide
/-- V-F9, L1-3. -/
theorem test_fade_leaves_plain_cells :
    fadeGrid (cells [(0, 0x0F), (1, 0x8F), (2, 0x2F)]) = cells [(0, 0x0F), (1, 0x8F), (2, 0x2F)] := by decide +kernel

/-- V-A2. -/
theorem test_automaton_fall : updateGrid [] (cells [(0, 2), (16, 7)]) = cells [(0, 1), (16, 6), (32, 7)] := by decide +kernel
/-- V-A4, V-A5. -/
theorem test_automaton_bottom : updateGrid [] (cells [(224, 3), (240, 5), (225, 5), (241, 3)])
    = cells [(224, 2), (240, 4), (225, 4), (241, 5)] := by decide +kernel
/-- V-A7, V-A8: a spark overwrites. -/
theorem test_automaton_sparks : updateGrid [some 0, none, some 9] (cells [(0, 5)]) = cells [(2, 9), (16, 5)] := by decide +kernel

/-- V-SCH2: without a tick transition the core holds. V-SCH3: TICK 0 to 5 is one transition. -/
theorem test_tick : (parked .top).topStep.ctl = .holdTick
    ∧ ({ parked .holdTick with inputs := ⟨0, 5, 0, false, false⟩ } : State).waitTick.lastTick = 5 := by decide
/-- V-SCH7: powerdown, then WAKE. -/
theorem test_powerdown :
    ({ parked .top with grid := [(3, 9)], inputs := ⟨0, 1, 0, true, false⟩ } : State).topStep.grid = []
    ∧ ({ parked .down with eff := 9, inputs := ⟨0, 1, 0, true, true⟩ } : State).downStep.ctl = .top := by decide
/-- A Program of 0 or of 65532 bytes is refused (I12). -/
theorem test_program_size : step { parked .top with rom := ⟨0, []⟩ } = .refused .programSize
    ∧ step { parked .top with rom := ⟨65532, []⟩ } = .refused .programSize := ⟨rfl, rfl⟩
theorem test_reset_memory_wf : State.reset.grid.wf ∧ State.reset.rom.bytes.wf := by decide

/-! ### A witness for the hypotheses of each statement, named after it -/

/-- The input lines with the given selector and tick, PHASE at its target, no powerdown request, no WAKE. -/
def lines (sel tick : Nat) : Inputs := { sel := sel, tick := tick, phase := 0, pwrReq := false, wake := false }

/-- The run stage of the first sequence of program L3-5. -/
def interpState : State := running threeSequences
/-- A hold with the next tick pending, under TICK_STRICT. -/
def strictState : State :=
  { parked .holdTick with inputs := lines 0 1, params := { Params.suggested with tickStrict := true } }
/-- The automaton with one transition left to wait for and the next tick pending. -/
def automatonState : State :=
  { parked (.holdAuto 1) with mode := .automaton, grid := [(0, 4), (16, 5)], inputs := lines 0 1 }
/-- A fade step of a Grid without an autonomous cell. -/
def plainFadeState : State := { parked .fade with grid := [(0, 0x0F), (1, 0xEF)], lastTick := 4, inputs := lines 0 4 }

theorem interpState_inv : Inv interpState := by constructor <;> decide +kernel
theorem strictState_inv : Inv strictState := by constructor <;> decide +kernel
theorem automatonState_inv : Inv automatonState := by constructor <;> decide +kernel
theorem plainFadeState_inv : Inv plainFadeState := by constructor <;> decide +kernel

theorem witness_DecodeEncodeRoundTrip : (Instr.w 0xFFFF).wellFormed = true ∧ (Instr.invalid 0x45).wellFormed = true := by decide

/-- The bytes beside each named opcode fall under the last clause. -/
theorem witness_OpcodeByteSelectsInstruction : ∀ b ∈ ([0x60, 0x62, 0x64, 0x66, 0x6F, 0x71, 0x72, 0x74, 0x76, 0x79, 0x01, 0xFF] : List Byte),
    b ≠ 0x65 ∧ b ≠ 0x73 ∧ b ≠ 0x61 ∧ b ≠ 0x70 ∧ b ≠ 0x77 ∧ b ≠ 0x78 ∧ b ≠ 0x00 := by decide

/-- The ends of the three digit ranges meet one clause each, the bytes beside them the last. -/
theorem witness_HexDigitValues :
    (∀ b ∈ ([0x30, 0x39] : List Byte), 0x30 ≤ b.toNat ∧ b.toNat ≤ 0x39)
    ∧ (∀ b ∈ ([0x61, 0x66] : List Byte), 0x61 ≤ b.toNat ∧ b.toNat ≤ 0x66)
    ∧ (∀ b ∈ ([0x41, 0x46] : List Byte), 0x41 ≤ b.toNat ∧ b.toNat ≤ 0x46)
    ∧ ∀ b ∈ ([0x2F, 0x3A, 0x40, 0x47, 0x60, 0x67, 0x00, 0xFF] : List Byte),
      ¬(0x30 ≤ b.toNat ∧ b.toNat ≤ 0x39) ∧ ¬(0x61 ≤ b.toNat ∧ b.toNat ≤ 0x66) ∧ ¬(0x41 ≤ b.toNat ∧ b.toNat ≤ 0x46) := by decide

/-- A state for each opcode byte, for the clauses on fetching of the statements on operands and on each instruction. -/
theorem witness_OperandsAreAssembledBigEndian : ∀ b ∈ 0x71 :: namedOpcodes,
    (running [b, 0x31, 0x32, 0x33, 0x34]).rom.read (running [b, 0x31, 0x32, 0x33, 0x34]).pc.toNat = b := by decide +kernel

theorem witness_StepRunsDecodedInstruction : interpState.rom.legalSize ∧ interpState.ctl = .run
    ∧ decode interpState.fetchBytes = .e 0x01 ∧ (Instr.e 0x01).wellFormed = true := by decide +kernel

theorem witness_SetEffectResult : interpState.rom.read interpState.pc.toNat = 0x65 := by decide +kernel
theorem witness_SetCellResult : (running [0x73, 0x66, 0x66]).rom.read 0 = 0x73 := by decide +kernel
theorem witness_SetAllResult : (running [0x61]).rom.read 0 = 0x61 := by decide +kernel
theorem witness_PanAppliesDirectionsInOrder : (running [0x70, 0x66, 0x66]).rom.read 0 = 0x70
    ∧ (Pan.ofByte 0x01).down = false ∧ (Pan.ofByte 0x01).right = false ∧ (Pan.ofByte 0x01).up = false
    ∧ (Pan.ofByte 0x01).left = false := by decide +kernel
theorem witness_WaitResult : (running [0x77, 0x66]).rom.read 0 = 0x77 := by decide +kernel
theorem witness_RestartResult : (running [0x78]).rom.read 0 = 0x78 ∧ (running [0x78]).rom.read 1 = 0x00
    ∧ (running [0x45]).rom.read 0 ∉ namedOpcodes := by decide +kernel

theorem witness_PanOneDirection : ((5 : Nat) < 16 ∧ (12 : Nat) ≤ 15 - (3 : Nibble).toNat) ∧ (3 : Nibble).toNat ≤ 3 := by decide
theorem witness_PanOfNothingLeavesGrid : (Pan.ofByte 0xF0).amount = 0
    ∧ (Pan.ofByte 0x0F).down = false ∧ (Pan.ofByte 0x0F).right = false ∧ (Pan.ofByte 0x0F).up = false
    ∧ (Pan.ofByte 0x0F).left = false := by decide
/-- V-P7 for k = 2, and the boundary k = 5 at row 5, column 5. -/
theorem witness_PanAllFourReturnsSingleCell :
    (∀ k ∈ ([0, 1, 2, 5] : List Nibble), k.toNat ≤ 5 ∧ 5 + 2 * k.toNat ≤ 15)
    ∧ ∀ i : Byte, i.toNat ≠ 16 * 5 + 5 → ({ interpState with grid := [(85, 7)] } : State).cell i = 0x00 := by decide +kernel

/-- V-SEL1 to V-SEL4: the offsets 0, 7 and 14 for n = 0, 1, 2, and the NUL at 20 for n = 3. -/
theorem witness_SelectLandsAtSequenceStart :
    interpState.rom.legalSize
    ∧ (∀ p ∈ [(0, 0), (1, 7), (2, 14)], p.2 ≤ interpState.rom.size ∧ (∀ b < p.2, interpState.rom.read b ≠ 0x00)
        ∧ ((List.range p.2).countP fun b => interpState.rom.read b == 0x78) = p.1
        ∧ (p.2 = 0 ∨ interpState.rom.read (p.2 - 1) = 0x78))
    ∧ interpState.rom.read 20 = 0x00 ∧ (∀ b < 20, interpState.rom.read b ≠ 0x00)
    ∧ ((List.range 20).countP fun b => interpState.rom.read b == 0x78) < 3 := by decide +kernel

theorem witness_SequenceSwitchEndsAnyWait :
    let s : State := { interpState with ctl := .advance, wait := 0xFFFF, inputs := lines 1 0 }
    s.rom.legalSize ∧ s.ctl = .advance ∧ s.inputs.sel ≠ s.selL := by decide +kernel
/-- The entry of an advance call that finds WAIT = w and a steady selector. -/
def waiting (w : Word) : State := { interpState with ctl := .advance, wait := w }
theorem witness_WaitStageOfAdvance_steady (w : Word) :
    (waiting w).rom.legalSize ∧ (waiting w).ctl = .advance ∧ (waiting w).inputs.sel = (waiting w).selL := by
  refine ⟨?_, rfl, rfl⟩
  show interpState.rom.legalSize
  decide +kernel
/-- WAIT at both ends of each clause. -/
theorem witness_WaitStageOfAdvance : (waiting 0xFFFF).wait.toNat = 0xFFFF
    ∧ (1 < (waiting 0xFFFE).wait.toNat ∧ (waiting 0xFFFE).wait.toNat < 0xFFFF)
    ∧ (1 < (waiting 2).wait.toNat ∧ (waiting 2).wait.toNat < 0xFFFF)
    ∧ (waiting 1).wait.toNat = 1 ∧ (waiting 0).wait.toNat = 0 := by
  simp [waiting]
theorem witness_WaitResumesAfterNCalls : (waiting 1).inputs.sel = (waiting 1).selL
    ∧ (waiting 1).wait.toNat = 1 ∧ (waiting 2).wait.toNat = 2 ∧ (waiting 0xFFFE).wait.toNat = 0xFFFE := by
  simp [waiting, interpState, running, State.reset]
theorem witness_AdvanceCallTerminates : interpState.rom.legalSize ∧ interpState.ctl = .run := by decide +kernel
/-- `` `wffffq` `` and the final NUL, at its `w`: execution never reaches the `q` (40_interpreter.md R87 (b)). -/
def haltingState : State := running [0x77, 0x66, 0x66, 0x46, 0x66, 0x71, 0x00]
/-- R71 admits a byte that no execution reaches, and refuses one behind a finite wait or in an operand. -/
theorem test_wellformed_program : haltingState.rom.wellFormed
    ∧ ¬(running [0x77, 0x66, 0x66, 0x66, 0x65, 0x71, 0x00]).rom.wellFormed
    ∧ ¬(running [0x77, 0x66, 0x66, 0x66, 0x67, 0x61, 0x00]).rom.wellFormed := by decide +kernel
/-- An opcode position, the `w` that halts, and the halt after it, whose PC is no opcode position. -/
theorem witness_WellFormedProgramNeverInvalid :
    (interpState.rom.wellFormed ∧ interpState.inSequence ∧ interpState.rom.opcodePosition interpState.pc.toNat = true
      ∧ ¬(interpState.ctl = .run ∧ interpState.fetch = .w 0xFFFF) ∧ after (step interpState) (·.pc) = some 3)
    ∧ (haltingState.rom.wellFormed ∧ haltingState.inSequence ∧ after (step haltingState) (·.wait) = some 0xFFFF)
    ∧ ({ haltingState with ctl := .advance, pc := 5, wait := 0xFFFF } : State).inSequence
    ∧ haltingState.rom.opcodePosition 5 = false := by decide +kernel

/-- Cells for each clause (V-F1, V-F2, V-F3, V-F4, V-F5, V-F8, V-F9). -/
theorem witness_FadeStepPerCell : plainFadeState.rom.legalSize ∧ plainFadeState.ctl = .fade
    ∧ ([0x3E, 0x3F, 0x7F, 0x5F, 0x50, 0x10, 0x0F] : List Byte).map
        (fun c => (decide (c &&& 0x10 ≠ 0), decide (c &&& 0x20 ≠ 0), c.toNat % 16, decide (c &&& 0x40 ≠ 0)))
      = [(true, true, 14, false), (true, true, 15, false), (true, true, 15, true), (true, false, 15, true),
         (true, false, 0, true), (true, false, 0, false), (false, false, 15, false)] := by decide +kernel
theorem witness_FadeIsCellwise : Inv plainFadeState ∧ plainFadeState.ctl = .fade
    ∧ (∀ i : Byte, plainFadeState.cell i &&& 0x10 = 0) ∧ after (step plainFadeState) (·.ctl) = some .push :=
  ⟨plainFadeState_inv, rfl, by decide +kernel, by decide +kernel⟩
theorem witness_FadeCycleAndStop : ((0x70 : Byte) &&& 0x10 ≠ 0 ∧ (0x70 : Byte) &&& 0x40 ≠ 0)
    ∧ (0x30 : Byte) &&& 0x10 ≠ 0 ∧ (0x30 : Byte) &&& 0x40 = 0 ∧ (0x1F : Byte) &&& 0x10 ≠ 0 ∧ (0x1F : Byte) &&& 0x40 = 0 := by decide
theorem witness_FadeIsFollowedByPush : plainFadeState.rom.legalSize ∧ plainFadeState.ctl = .fade := by decide

theorem witness_AutomatonUpdateClosedForm :
    let s : State := { automatonState with ctl := .update }
    s.rom.legalSize ∧ s.ctl = .update := by decide
theorem witness_AutomatonKeepsPlainCells :
    let s : State := { automatonState with ctl := .update }
    s.rom.legalSize ∧ s.ctl = .update ∧ ∀ i : Byte, (s.cell i).toNat ≤ 15 := by decide +kernel
/-- V-A1: L = 5 at row 0, column 0. -/
theorem witness_SingleDropMotion : 1 ≤ (5 : Byte).toNat ∧ (5 : Byte).toNat ≤ 15
    ∧ ∀ r < 16, ∀ c < 16, Memory.read [(0, 5)] (16 * r + c) = if r = 0 ∧ c = 0 then 5 else 0x00 := by decide +kernel

/-- The hold for a phase that is not the target. -/
def phaseHoldState : State := { parked .holdPhase with mode := .automaton, inputs := { lines 0 0 with phase := 1 } }
/-- One state for each kind of hold. -/
theorem witness_HoldsKeepTheCore :
    ((parked .holdTick).rom.legalSize ∧ (parked .holdTick).ctl = .holdTick
      ∧ (parked .holdTick).inputs.tick = (parked .holdTick).lastTick)
    ∧ ((parked (.holdAuto 1)).rom.legalSize ∧ (parked (.holdAuto 1)).ctl = .holdAuto (0 + 1)
      ∧ (parked (.holdAuto 1)).inputs.tick = (parked (.holdAuto 1)).lastTick)
    ∧ (phaseHoldState.rom.legalSize ∧ phaseHoldState.ctl = .holdPhase
      ∧ phaseHoldState.inputs.phase ≠ phaseHoldState.params.phaseTarget)
    ∧ ((parked .down).rom.legalSize ∧ (parked .down).ctl = .down ∧ (parked .down).inputs.wake = false) := by decide
theorem witness_TickTransitionEntersMode : strictState.rom.legalSize ∧ strictState.ctl = .holdTick
    ∧ strictState.inputs.tick ≠ strictState.lastTick
    ∧ (parked .top).ctl = .top ∧ (parked .top).inputs.pwrReq = false ∧ (parked .top).inputs.tick = (parked .top).lastTick := by decide
theorem witness_AutomatonGateAndThrottle : automatonState.rom.legalSize
    ∧ (parked .holdPhase).inputs.phase = (parked .holdPhase).params.phaseTarget
    ∧ automatonState.ctl = .holdAuto (0 + 1) ∧ automatonState.inputs.tick ≠ automatonState.lastTick
    ∧ (parked (.holdAuto 0)).ctl = .holdAuto 0 := by decide
theorem witness_StrictTicksAreConsecutive : Inv strictState ∧ strictState.params.tickStrict = true
    ∧ after (step strictState) (·.lastTick) = some 1 := ⟨strictState_inv, by decide, by decide +kernel⟩
theorem witness_PushesOnlyWhereStated : after (step { plainFadeState with ctl := .push }) (·.pushes.length) = some 1
    ∧ after (step plainFadeState) (·.pushes.length) = some 0 := by decide +kernel
theorem witness_PowerdownAndWake :
    let s (c : Ctl) (p w : Bool) : State := { parked c with inputs := { sel := 0, tick := 0, phase := 0, pwrReq := p, wake := w } }
    (s .top true false).rom.legalSize ∧ (s .top true false).inputs.pwrReq = true
    ∧ (s .down false false).inputs.wake = false ∧ (s .down false true).inputs.wake = true := by decide
theorem witness_FirstInstructionAfterReset :
    let s : State := { interpState with ctl := .holdTick, inputs := lines 0 1 }
    s.rom.legalSize ∧ s.mode = .interp ∧ s.ctl = .holdTick ∧ s.inputs.tick ≠ s.lastTick ∧ s.pc = 0x0000 ∧ s.wait = 0x0000
    ∧ s.selL = 0 := by decide +kernel

theorem witness_StepKeepsInv : Inv automatonState ∧ after (step automatonState) (·.ctl) = some (.holdAuto 0) :=
  ⟨automatonState_inv, by decide +kernel⟩
theorem witness_StepAlwaysGoesOn : interpState.rom.legalSize ∧ ¬({ size := 65532, bytes := [] } : Rom).legalSize := by decide +kernel
theorem witness_ProgramIsImmutable : after (step interpState) (·.rom.size) = some 21 := by decide +kernel
/-- A step for each clause: it changes the register. -/
theorem witness_WriteOwnership :
    after (step interpState) (·.eff) = some 1
    ∧ after (step { running [0x77, 0x30, 0x30, 0x30, 0x35] with lastTick := 1 }) (·.wait) = some 5
    ∧ after (step interpState) (·.pc) = some 3
    ∧ after (step { interpState with ctl := .advance, inputs := lines 2 0 }) (·.selL) = some 2
    ∧ after (step strictState) (·.lastTick) = some 1
    ∧ after (step { running [0x73, 0x30, 0x30] with eff := 7 }) (·.grid) = some [(0, 7)] := by decide +kernel
theorem witness_ModesDoNotMix : (Inv automatonState ∧ automatonState.mode = .automaton ∧ automatonState.ctl ≠ .down)
    ∧ Inv interpState ∧ interpState.mode = .interp :=
  ⟨⟨automatonState_inv, rfl, by decide⟩, interpState_inv, rfl⟩
/-- A step of the run stage reads no line: every line may differ. -/
theorem witness_InputsAreReadOnlyWhereStated :
    let i : Inputs := { sel := 3, tick := 9, phase := 2, pwrReq := true, wake := true }
    interpState.rom.legalSize ∧ interpState.ctl = .run ∧ (interpState.ctl = .advance → i.sel = interpState.inputs.sel) := by decide +kernel
theorem witness_SelectorIsSteadyDuringStep : after (step { (parked .down) with inputs := lines 0 7 }) (·.inputs.tick) = some 7 := by
  decide +kernel

end Sys2Proof.Tests
end

section
/-! SUPPORT. The step read at each controller position, the instructions as record updates, the frames of the scheduler's
operations; and on them the settled statements about the state elements of 10_state.md: reset, write ownership, and where
the input lines are read. -/

namespace Sys2Proof.Machine

variable {s t : State}

/-! ### The step at each controller position (44_scheduler.md R160) -/

theorem step_top (hl : s.rom.legalSize) (hc : s.ctl = .top) : step s = .next s.topStep.environment := by
  simp only [step, if_pos hl, hc]

theorem step_holdTick (hl : s.rom.legalSize) (hc : s.ctl = .holdTick) : step s = .next s.waitTick.environment := by
  simp only [step, if_pos hl, hc]

theorem step_advance (hl : s.rom.legalSize) (hc : s.ctl = .advance) : step s = .next s.advanceEntry.environment := by
  simp only [step, if_pos hl, hc]

theorem step_run (hl : s.rom.legalSize) (hc : s.ctl = .run) : step s = exec s.fetch s := by
  simp only [step, if_pos hl, hc]

theorem step_fade (hl : s.rom.legalSize) (hc : s.ctl = .fade) : step s = .next s.fadeStep.environment := by
  simp only [step, if_pos hl, hc]

theorem step_push (hl : s.rom.legalSize) (hc : s.ctl = .push) : step s = .next s.pushStep.environment := by
  simp only [step, if_pos hl, hc]

theorem step_holdPhase (hl : s.rom.legalSize) (hc : s.ctl = .holdPhase) :
    step s = .next s.waitPhase.environment := by
  simp only [step, if_pos hl, hc]

theorem step_update (hl : s.rom.legalSize) (hc : s.ctl = .update) :
    step s = .next s.automatonUpdate.environment := by
  simp only [step, if_pos hl, hc]

theorem step_holdAuto {n : Nat} (hl : s.rom.legalSize) (hc : s.ctl = .holdAuto n) :
    step s = .next (s.autoWait n).environment := by
  simp only [step, if_pos hl, hc]

theorem step_down (hl : s.rom.legalSize) (hc : s.ctl = .down) : step s = .next s.downStep.environment := by
  simp only [step, if_pos hl, hc]

/-- Only a Program of legal size has a next state (93_implementation_defined.md I12). -/
theorem legalSize_of_step (h : step s = .next t) : s.rom.legalSize := by
  by_contra hl
  simp [step, if_neg hl] at h

/-! ### The instructions as record updates -/

variable (s)

theorem exec_e (v : Byte) : exec (.e v) s = .next { s with eff := v, pc := s.pc + 3 } := rfl

theorem exec_s (i : Byte) :
    exec (.s i) s = .next { s with grid := s.grid.write i.toNat s.eff, pc := s.pc + 3 } := rfl

theorem exec_a : exec .a s = .next { s with grid := gridOf fun _ => s.eff, pc := s.pc + 1 } := rfl

theorem exec_p (v : Pan) : exec (.p v) s = .next { s with grid := pan v s.grid, pc := s.pc + 3 } := rfl

theorem exec_w (v : Word) : exec (.w v) s = .next { s with
    wait := v, pc := s.pc + 5
    ctl := if v = 0x0000 then s.ctl else if s.lastTick % 4 = 0 then .fade else .top } := by
  by_cases hv : v = 0x0000
  · simp only [exec, execW, if_pos hv]
    rfl
  · simp only [exec, execW, if_neg hv]
    rfl

theorem exec_x : exec .x s = .next (s.restart .endX) := rfl

theorem exec_nul : exec .nul s = .next (s.restart .endNul) := rfl

theorem exec_invalid (b : Byte) : exec (.invalid b) s = .next (s.restart (.invalid b)) := rfl

/-! ### What the scheduler's operations can write

Each frame names the written fields; where the written value is always the same one, it is given. -/

/-- The outer loop's wait leaves LAST_TICK at TICK, whether it holds (then they agree) or consumes the transition. -/
theorem waitTick_frame : ∃ c, s.waitTick = { s with lastTick := s.inputs.tick, ctl := c } := by
  obtain ⟨htick, hs⟩ | ⟨-, -, hs⟩ | ⟨-, -, hs⟩ := waitTick_cases s
  · exact ⟨_, by rw [hs, htick]⟩
  · exact ⟨_, hs⟩
  · exact ⟨_, hs⟩

/-- The throttle's wait leaves LAST_TICK at TICK, whether it holds or counts one transition. -/
theorem autoWait_succ_frame (n : Nat) :
    ∃ c, s.autoWait (n + 1) = { s with lastTick := s.inputs.tick, ctl := c } := by
  by_cases htick : s.inputs.tick = s.lastTick
  · exact ⟨s.ctl, by simp [State.autoWait, htick]⟩
  · exact ⟨.holdAuto n, by simp only [State.autoWait, if_neg htick]; rfl⟩

theorem autoWait_zero : s.autoWait 0 = s.pushStep := rfl

theorem waitPhase_frame : ∃ c, s.waitPhase = { s with ctl := c } := by
  by_cases hphase : s.inputs.phase = s.params.phaseTarget
  · exact ⟨.update, by rw [State.waitPhase, if_pos hphase]; rfl⟩
  · exact ⟨s.ctl, by rw [State.waitPhase, if_neg hphase]⟩

theorem waitStage_frame : ∃ w c, s.waitStage = { s with wait := w, ctl := c } := by
  obtain ⟨-, hs⟩ | ⟨-, hs⟩ | ⟨-, hs⟩ | ⟨-, -, -, hs⟩ := waitStage_cases s
  · exact ⟨s.wait, _, hs⟩
  · exact ⟨s.wait, _, hs.trans (returnFromAdvance_eq s)⟩
  · exact ⟨_, _, hs⟩
  · exact ⟨_, _, hs.trans (returnFromAdvance_eq _)⟩

/-- The entry of an advance call leaves SEL_L at SEL; it moves PC only by a sequence switch. -/
theorem advanceEntry_frame : ∃ w p c,
    s.advanceEntry = { s with wait := w, pc := p, selL := s.inputs.sel, ctl := c }
    ∧ (s.inputs.sel = s.selL → p = s.pc) := by
  by_cases hsel : s.inputs.sel = s.selL
  · obtain ⟨w, c, hs⟩ := waitStage_frame s
    exact ⟨w, s.pc, c, by rw [State.advanceEntry, State.sequenceSwitch, if_pos hsel, hs, hsel], fun _ => rfl⟩
  · obtain ⟨w, c, hs⟩ := waitStage_frame (s.select s.inputs.sel)
    rw [State.advanceEntry, State.sequenceSwitch, if_neg hsel, hs]
    exact ⟨w, _, c, rfl, fun h => absurd h hsel⟩

theorem fadeStep_eq : s.fadeStep = { s with grid := fadeGrid s.grid, ctl := .push } := rfl

theorem pushStep_eq : s.pushStep = { s with trace := .renderPush s.grid :: s.trace, ctl := .top } := rfl

theorem automatonUpdate_eq : s.automatonUpdate = { s with
    grid := updateGrid (drawSparks s.params.nDiscard 16 s.drawCount).1 s.grid
    drawCount := (drawSparks s.params.nDiscard 16 s.drawCount).2
    ctl := .holdAuto s.params.autoWaitTicks } := rfl

/-! ### Reset (10_state.md R36) -/

/-- Power-on is a reset like any other: `State.reset` is what the core's reset leaves of it. -/
theorem coreReset_reset : State.reset.coreReset = State.reset := rfl

theorem cell_coreReset (i : Byte) : s.coreReset.cell i = 0x00 := read_blankGrid i.toNat

/-- Settles O37: the clauses of the power-on reset are those of the core's reset at its fixed point `State.reset`. -/
theorem resetValues : Obligations.ResetValues := by
  have core (s : State) : s.coreReset.eff = 0x00 ∧ s.coreReset.wait = 0x0000 ∧ s.coreReset.pc = 0x0000
      ∧ s.coreReset.selL = 0 ∧ s.coreReset.lastTick = s.inputs.tick ∧ s.coreReset.mode = s.mode
      ∧ s.coreReset.ctl = .top := by
    simp [coreReset_eq]
  obtain ⟨heff, hwait, hpc, hselL, hlastTick, -, hctl⟩ := core State.reset
  have hcell := cell_coreReset State.reset
  rw [coreReset_reset] at *
  exact ⟨fun s => ⟨cell_coreReset s, core s⟩, hcell, heff, hwait, hpc, hselL, hlastTick, hctl⟩

/-- Settles O39, clause by clause: both memories are empty, every register and line is 0 and CTL is at TOP. -/
theorem resetSatisfiesInv : Obligations.ResetSatisfiesInv where
  gridWf := ⟨.nil, by simp [State.reset]⟩
  gridBound := by simp [State.reset]
  romSize := by decide
  romWf := ⟨.nil, by simp [State.reset]⟩
  romBound := by simp [State.reset]
  paramsLegal := by decide
  selFits := Nat.two_pow_pos _
  selLFits := Nat.two_pow_pos _
  tickFits := Nat.two_pow_pos _
  lastTickFits := Nat.two_pow_pos _
  tickStrict _ := .inl rfl
  ctlLegal := rfl
  pcBound := Nat.zero_le _
  runWait _ := rfl
  runSel _ := rfl
  fadeTick _ := rfl

/-! ### Write ownership (10_state.md R38) -/

/-- Settles O43: at each controller position the frame of its operation names every field it can write; the environment
writes none of them, and in the run stage the fetched instruction decides. -/
theorem writeOwnership : Obligations.WriteOwnership := by
  intro s t h
  have hl := legalSize_of_step h
  cases hc : s.ctl with
  | top =>
    cases (step_top hl hc).symm.trans h
    obtain ⟨c, hwait⟩ := waitTick_frame s
    by_cases hp : s.inputs.pwrReq = true
    · simp [environment_eq, State.topStep, hp, powerdown_eq]
    · simp [environment_eq, State.topStep, hp, hwait]
  | holdTick =>
    cases (step_holdTick hl hc).symm.trans h
    obtain ⟨c, hwait⟩ := waitTick_frame s
    simp [environment_eq, hwait]
  | advance =>
    cases (step_advance hl hc).symm.trans h
    obtain ⟨w, p, c, hentry, hpc⟩ := advanceEntry_frame s
    simpa [environment_eq, hentry] using mt hpc
  | run =>
    rw [step_run hl hc] at h
    cases hi : s.fetch with
    | e v => cases (exec_e s v).symm.trans (hi ▸ h); simp
    | s i => cases (exec_s s i).symm.trans (hi ▸ h); simp
    | a => cases (exec_a s).symm.trans (hi ▸ h); simp
    | p v => cases (exec_p s v).symm.trans (hi ▸ h); simp
    | w v => cases (exec_w s v).symm.trans (hi ▸ h); simp
    | x => cases (exec_x s).symm.trans (hi ▸ h); simp [restart_eq]
    | nul => cases (exec_nul s).symm.trans (hi ▸ h); simp [restart_eq]
    | invalid b => cases (exec_invalid s b).symm.trans (hi ▸ h); simp [restart_eq]
  | fade =>
    cases (step_fade hl hc).symm.trans h
    simp [environment_eq, fadeStep_eq]
  | push =>
    cases (step_push hl hc).symm.trans h
    simp [environment_eq, pushStep_eq]
  | holdPhase =>
    cases (step_holdPhase hl hc).symm.trans h
    obtain ⟨c, hwait⟩ := waitPhase_frame s
    simp [environment_eq, hwait]
  | update =>
    cases (step_update hl hc).symm.trans h
    simp [environment_eq, automatonUpdate_eq]
  | holdAuto n =>
    cases (step_holdAuto hl hc).symm.trans h
    cases n with
    | zero => simp [environment_eq, autoWait_zero, pushStep_eq]
    | succ n =>
      obtain ⟨c, hwait⟩ := autoWait_succ_frame s n
      simp [environment_eq, hwait]
  | down =>
    cases (step_down hl hc).symm.trans h
    by_cases hw : s.inputs.wake = true
    · simp [environment_eq, State.downStep, hw, coreReset_eq]
    · simp [environment_eq, State.downStep, hw]

/-! ### Where the input lines are read (10_state.md R34)

Changing lines an operation does not read commutes with the operation. -/

variable {s} {i : Inputs}

theorem waitTick_setInputs (htick : i.tick = s.inputs.tick) :
    (s.setInputs i).waitTick = s.waitTick.setInputs i := by
  simp only [State.waitTick, setInputs_inputs, setInputs_lastTick, htick]
  split <;> rfl

theorem topStep_setInputs (hp : i.pwrReq = s.inputs.pwrReq) (htick : i.tick = s.inputs.tick) :
    (s.setInputs i).topStep = s.topStep.setInputs i := by
  simp only [State.topStep, setInputs_inputs, hp, waitTick_setInputs htick]
  split <;> rfl

theorem sequenceSwitch_setInputs (hsel : i.sel = s.inputs.sel) :
    (s.setInputs i).sequenceSwitch = s.sequenceSwitch.setInputs i := by
  simp only [State.sequenceSwitch, setInputs_inputs, setInputs_selL, hsel]
  split <;> rfl

variable (s i) in
theorem waitStage_setInputs : (s.setInputs i).waitStage = s.waitStage.setInputs i := by
  simp only [State.waitStage, setInputs_wait, apply_ite (State.setInputs · i)]
  rfl

theorem advanceEntry_setInputs (hsel : i.sel = s.inputs.sel) :
    (s.setInputs i).advanceEntry = s.advanceEntry.setInputs i := by
  rw [State.advanceEntry, sequenceSwitch_setInputs hsel, waitStage_setInputs, State.advanceEntry]

theorem waitPhase_setInputs (hphase : i.phase = s.inputs.phase) :
    (s.setInputs i).waitPhase = s.waitPhase.setInputs i := by
  simp only [State.waitPhase, setInputs_inputs, setInputs_params, hphase]
  split <;> rfl

theorem autoWait_succ_setInputs (n : Nat) (htick : i.tick = s.inputs.tick) :
    (s.setInputs i).autoWait (n + 1) = (s.autoWait (n + 1)).setInputs i := by
  simp only [State.autoWait, setInputs_inputs, setInputs_lastTick, htick]
  split <;> rfl

theorem coreReset_setInputs (htick : i.tick = s.inputs.tick) :
    (s.setInputs i).coreReset = s.coreReset.setInputs i := by
  simp only [coreReset_eq, setInputs_inputs, htick]
  rfl

theorem downStep_setInputs (hw : i.wake = s.inputs.wake) (htick : i.tick = s.inputs.tick) :
    (s.setInputs i).downStep = s.downStep.setInputs i := by
  simp only [State.downStep, setInputs_inputs, hw, coreReset_setInputs htick]
  split <;> rfl

/-- An instruction reads no input line. -/
theorem exec_setInputs (s : State) (i : Inputs) (ins : Instr) :
    ∃ t, exec ins s = .next t ∧ exec ins (s.setInputs i) = .next (t.setInputs i) := by
  cases ins with
  | e v => exact ⟨_, exec_e s v, rfl⟩
  | s j => exact ⟨_, exec_s s j, rfl⟩
  | a => exact ⟨_, exec_a s, rfl⟩
  | p v => exact ⟨_, exec_p s v, rfl⟩
  | w v => exact ⟨_, exec_w s v, exec_w (s.setInputs i) v⟩
  | x => exact ⟨_, exec_x s, rfl⟩
  | nul => exact ⟨_, exec_nul s, rfl⟩
  | invalid b => exact ⟨_, exec_invalid s b, rfl⟩

/-- Two outcomes that both go on, to states that differ in the input lines only. -/
def DifferInLines (o o' : Host.Outcome State Fault Refusal) : Prop :=
  ∃ t t', o = .next t ∧ o' = .next t' ∧ t' = { t with inputs := t'.inputs }

/-- The environment's move writes the lines and the clock whatever the lines were, so it keeps such a difference. -/
theorem differInLines_environment {o o' : Host.Outcome State Fault Refusal} {u u' : State}
    (ho : o = .next u.environment) (ho' : o' = .next u'.environment) (hu : u' = u.setInputs i) :
    DifferInLines o o' :=
  ⟨_, _, ho, ho', by rw [hu]; rfl⟩

/-- Settles O45: at each controller position the core's operation commutes with the change of the lines it does not read,
and the environment's move after it writes lines and the clock only. -/
theorem inputsAreReadOnlyWhereStated : Obligations.InputsAreReadOnlyWhereStated := by
  intro s i hl hsel htick hphase hpwr hwake
  change DifferInLines (step s) (step (s.setInputs i))
  cases hc : s.ctl with
  | top =>
    exact differInLines_environment (step_top hl hc) (step_top hl hc) (topStep_setInputs (hpwr hc) (htick (.inl hc)))
  | holdTick =>
    exact differInLines_environment (step_holdTick hl hc) (step_holdTick hl hc)
      (waitTick_setInputs (htick (.inr (.inl hc))))
  | advance =>
    exact differInLines_environment (step_advance hl hc) (step_advance hl hc) (advanceEntry_setInputs (hsel hc))
  | run =>
    obtain ⟨t, ht, ht'⟩ := exec_setInputs s i s.fetch
    exact ⟨t, t.setInputs i, (step_run hl hc).trans ht, (step_run (s := s.setInputs i) hl hc).trans ht', rfl⟩
  | fade => exact differInLines_environment (step_fade hl hc) (step_fade hl hc) rfl
  | push => exact differInLines_environment (step_push hl hc) (step_push hl hc) rfl
  | holdPhase =>
    exact differInLines_environment (step_holdPhase hl hc) (step_holdPhase hl hc) (waitPhase_setInputs (hphase hc))
  | update => exact differInLines_environment (step_update hl hc) (step_update hl hc) rfl
  | holdAuto n =>
    have hu : (s.setInputs i).autoWait n = (s.autoWait n).setInputs i := by
      cases n with
      | zero => rfl
      | succ n => exact autoWait_succ_setInputs n (htick (.inr (.inr (.inl ⟨n, hc⟩))))
    exact differInLines_environment (step_holdAuto hl hc) (step_holdAuto hl hc) hu
  | down =>
    exact differInLines_environment (step_down hl hc) (step_down hl hc)
      (downStep_setInputs (hwake hc) (htick (.inr (.inr (.inr hc)))))

end Sys2Proof.Machine
end

section
/-! SUPPORT. The two halves of a step, the core's atomic step and the environment's move after it: the core writes neither
the Program nor an input line, the environment writes no Program; and on them the settled statements about the address
spaces of 20_memory.md: the Program is never written, and SEL, TICK and PHASE change only where the environment may. -/

namespace Sys2Proof.Machine

variable {s t u : State}

/-! ### What the core never writes -/

/-- `u` has the Program and the input lines of `s`: what the build and the environment drive, and the core only reads. -/
def SameRomAndLines (s u : State) : Prop := u.rom = s.rom ∧ u.inputs = s.inputs

variable (s)

theorem waitTick_sameRomAndLines : SameRomAndLines s s.waitTick := by
  obtain ⟨c, hs⟩ := waitTick_frame s
  simp [SameRomAndLines, hs]

theorem topStep_sameRomAndLines : SameRomAndLines s s.topStep := by
  by_cases hp : s.inputs.pwrReq = true
  · simp [SameRomAndLines, State.topStep, hp, powerdown_eq]
  · simpa [State.topStep, hp] using waitTick_sameRomAndLines s

theorem advanceEntry_sameRomAndLines : SameRomAndLines s s.advanceEntry := by
  obtain ⟨w, p, c, hs, -⟩ := advanceEntry_frame s
  simp [SameRomAndLines, hs]

theorem waitPhase_sameRomAndLines : SameRomAndLines s s.waitPhase := by
  obtain ⟨c, hs⟩ := waitPhase_frame s
  simp [SameRomAndLines, hs]

theorem autoWait_sameRomAndLines (n : Nat) : SameRomAndLines s (s.autoWait n) := by
  cases n with
  | zero => exact ⟨rfl, rfl⟩
  | succ n =>
    obtain ⟨c, hs⟩ := autoWait_succ_frame s n
    simp [SameRomAndLines, hs]

theorem downStep_sameRomAndLines : SameRomAndLines s s.downStep := by
  by_cases hw : s.inputs.wake = true
  · simp [SameRomAndLines, State.downStep, hw, coreReset_eq]
  · simp [SameRomAndLines, State.downStep, hw]

theorem exec_sameRomAndLines (i : Instr) : ∃ t, exec i s = .next t ∧ SameRomAndLines s t := by
  cases i with
  | e v => exact ⟨_, exec_e s v, rfl, rfl⟩
  | s j => exact ⟨_, exec_s s j, rfl, rfl⟩
  | a => exact ⟨_, exec_a s, rfl, rfl⟩
  | p v => exact ⟨_, exec_p s v, rfl, rfl⟩
  | w v => exact ⟨_, exec_w s v, rfl, rfl⟩
  | x => exact ⟨_, exec_x s, rfl, rfl⟩
  | nul => exact ⟨_, exec_nul s, rfl, rfl⟩
  | invalid b => exact ⟨_, exec_invalid s b, rfl, rfl⟩

variable {s}

/-! ### The two halves of a step -/

/-- A step is an atomic step of the core to some `u`, which keeps the Program and the lines, and then a move of the
environment, but for an instruction of the run stage, after which the environment does not move (44_scheduler.md R160). -/
theorem step_core_then_environment (h : step s = .next t) :
    ∃ u, SameRomAndLines s u ∧ (t = u ∧ s.ctl = .run ∨ t = u.environment) := by
  have hl := legalSize_of_step h
  have moved {u : State} (hu : step s = .next u.environment) : t = u.environment := by
    cases h.symm.trans hu
    rfl
  cases hc : s.ctl with
  | top => exact ⟨_, topStep_sameRomAndLines s, .inr (moved (step_top hl hc))⟩
  | holdTick => exact ⟨_, waitTick_sameRomAndLines s, .inr (moved (step_holdTick hl hc))⟩
  | advance => exact ⟨_, advanceEntry_sameRomAndLines s, .inr (moved (step_advance hl hc))⟩
  | run =>
    obtain ⟨u, hu, hsame⟩ := exec_sameRomAndLines s s.fetch
    cases h.symm.trans ((step_run hl hc).trans hu)
    exact ⟨t, hsame, .inl ⟨rfl, rfl⟩⟩
  | fade => exact ⟨s.fadeStep, ⟨rfl, rfl⟩, .inr (moved (step_fade hl hc))⟩
  | push => exact ⟨s.pushStep, ⟨rfl, rfl⟩, .inr (moved (step_push hl hc))⟩
  | holdPhase => exact ⟨_, waitPhase_sameRomAndLines s, .inr (moved (step_holdPhase hl hc))⟩
  | update => exact ⟨s.automatonUpdate, ⟨rfl, rfl⟩, .inr (moved (step_update hl hc))⟩
  | holdAuto n => exact ⟨_, autoWait_sameRomAndLines s n, .inr (moved (step_holdAuto hl hc))⟩
  | down => exact ⟨_, downStep_sameRomAndLines s, .inr (moved (step_down hl hc))⟩

/-! ### What the environment's move keeps -/

@[simp] theorem environment_rom : u.environment.rom = u.rom := rfl

@[simp] theorem environment_ctl : u.environment.ctl = u.ctl := rfl

/-- Where the core is between invocations of its step functions (log 11). -/
theorem betweenCalls_iff (c : Ctl) :
    c.betweenCalls = true ↔ c = .top ∨ c = .holdTick ∨ c = .advance ∨ c = .down := by
  cases c <;> simp [Ctl.betweenCalls]

/-- SEL rests while a step function runs (20_memory.md R50). -/
theorem environment_sel_of_not_betweenCalls (h : ¬u.ctl.betweenCalls = true) :
    u.environment.inputs.sel = u.inputs.sel := by
  simp [environment_eq, nextInputs, h]

/-- TICK and PHASE rest while the core is down (44_scheduler.md R167). -/
theorem environment_tick_phase_of_down (h : u.ctl = .down) :
    u.environment.inputs.tick = u.inputs.tick ∧ u.environment.inputs.phase = u.inputs.phase := by
  simp [environment_eq, nextInputs, h]

/-! ### The Program and the lines under a step -/

/-- Settles O42: neither the core's half of a step nor the environment's writes the Program. -/
theorem programIsImmutable : Obligations.ProgramIsImmutable := by
  intro s t h
  obtain ⟨u, ⟨hrom, -⟩, ⟨rfl, -⟩ | rfl⟩ := step_core_then_environment h
  · exact hrom
  · exact environment_rom.trans hrom

/-- Settles O46: the core's half of a step changes no line, and the environment's half moves SEL only between calls and
leaves TICK and PHASE alone while the core is down. -/
theorem selectorIsSteadyDuringStep : Obligations.SelectorIsSteadyDuringStep := by
  intro s t h
  obtain ⟨u, ⟨-, hlines⟩, ⟨rfl, -⟩ | rfl⟩ := step_core_then_environment h
  · exact ⟨fun hsel => absurd (congrArg Inputs.sel hlines) hsel, fun _ => by simp [hlines]⟩
  · rw [← hlines, environment_ctl, ← betweenCalls_iff]
    exact ⟨Not.imp_symm environment_sel_of_not_betweenCalls, environment_tick_phase_of_down⟩

end Sys2Proof.Machine
end

section
/-! SUPPORT. The decoder read at each opcode byte, the hex digits and their operands on naturals, the pan byte's fields, the
instruction fetched at PC; and on them the settled statements about the encoding of 30_encoding.md. -/

namespace Sys2Proof

/-! ### The decoder at each opcode byte (30_encoding.md R61) -/

section

variable {bs : List Byte}

theorem decode_e (h : byteAt bs 0 = 0x65) : decode bs = .e (hex2 (byteAt bs 1) (byteAt bs 2)) := by
  simp [decode, h]

theorem decode_s (h : byteAt bs 0 = 0x73) : decode bs = .s (hex2 (byteAt bs 1) (byteAt bs 2)) := by
  simp [decode, h]

theorem decode_a (h : byteAt bs 0 = 0x61) : decode bs = .a := by
  simp [decode, h]

theorem decode_p (h : byteAt bs 0 = 0x70) : decode bs = .p (Pan.ofByte (hex2 (byteAt bs 1) (byteAt bs 2))) := by
  simp [decode, h]

theorem decode_w (h : byteAt bs 0 = 0x77) :
    decode bs = .w (hex4 (byteAt bs 1) (byteAt bs 2) (byteAt bs 3) (byteAt bs 4)) := by
  simp [decode, h]

theorem decode_x (h : byteAt bs 0 = 0x78) : decode bs = .x := by
  simp [decode, h]

theorem decode_nul (h : byteAt bs 0 = 0x00) : decode bs = .nul := by
  simp [decode, h]

theorem not_mem_namedOpcodes {b : Byte} : b ∉ namedOpcodes ↔
    b ≠ 0x65 ∧ b ≠ 0x73 ∧ b ≠ 0x61 ∧ b ≠ 0x70 ∧ b ≠ 0x77 ∧ b ≠ 0x78 ∧ b ≠ 0x00 := by
  simp only [namedOpcodes, List.mem_cons, List.not_mem_nil, or_false, not_or, ne_eq]

theorem decode_invalid (h : byteAt bs 0 ∉ namedOpcodes) : decode bs = .invalid (byteAt bs 0) := by
  obtain ⟨he, hs, ha, hp, hw, hx, hn⟩ := not_mem_namedOpcodes.1 h
  simp only [decode, if_neg he, if_neg hs, if_neg ha, if_neg hp, if_neg hw, if_neg hx, if_neg hn]

end

/-- Settles O2: each clause is the decoder's equation at that opcode byte and the format of the instruction it gives. -/
theorem opcodeByteSelectsInstruction : Obligations.OpcodeByteSelectsInstruction := by
  intro b rest
  have row {i : Instr} (h : decode (b :: rest) = i) :
      decode (b :: rest) = i ∧ (decode (b :: rest)).format = i.format := ⟨h, congrArg _ h⟩
  exact ⟨fun h => (row (decode_e h)).imp_left (⟨_, ·⟩), fun h => (row (decode_s h)).imp_left (⟨_, ·⟩),
    fun h => row (decode_a h), fun h => (row (decode_p h)).imp_left (⟨_, ·⟩),
    fun h => (row (decode_w h)).imp_left (⟨_, ·⟩), fun h => row (decode_x h), fun h => row (decode_nul h),
    fun he hs ha hp hw hx hn => row (decode_invalid (not_mem_namedOpcodes.2 ⟨he, hs, ha, hp, hw, hx, hn⟩))⟩

/-- Settles O6: closed words, each decoded by evaluation. -/
theorem specWordsDecode : Obligations.SpecWordsDecode := by
  unfold Obligations.SpecWordsDecode
  decide

/-! ### Hex digits and their operands on naturals (30_encoding.md R63, R64) -/

/-- Settles O3: the clause's range decides the branch of `hexDigit`, and there the value is a difference without wrap. -/
theorem hexDigitValues : Obligations.HexDigitValues := by
  intro b
  refine ⟨fun h1 h2 => ?decimal, fun h1 h2 => ?lower, fun h1 h2 => ?upper, fun hd hl hu => ?other⟩
  case decimal =>
    rw [hexDigit, if_pos (by bv_omega)]
    bv_omega
  case lower =>
    rw [hexDigit, if_neg (by bv_omega), if_pos (by bv_omega)]
    bv_omega
  case upper =>
    rw [hexDigit, if_neg (by bv_omega), if_neg (by bv_omega), if_pos (by bv_omega)]
    bv_omega
  case other =>
    rw [hexDigit, if_neg (by bv_omega), if_neg (by bv_omega), if_neg (by bv_omega)]
    rfl

/-- Reading the digit written for a value gives the value back. -/
@[simp] theorem hexDigit_hexChar (n : Nibble) : hexDigit (hexChar n) = n := by
  decide +revert

theorem hex2_toNat (d1 d0 : Byte) : (hex2 d1 d0).toNat = (hexDigit d1).toNat * 16 + (hexDigit d0).toNat := by
  simp only [hex2]
  bv_omega

theorem hex4_toNat (d3 d2 d1 d0 : Byte) : (hex4 d3 d2 d1 d0).toNat =
    (hexDigit d3).toNat * 4096 + (hexDigit d2).toNat * 256 + (hexDigit d1).toNat * 16 + (hexDigit d0).toNat := by
  simp only [hex4]
  bv_omega

/-- The two digits written for a byte are read back as that byte. -/
theorem hex2_hexChar (v : Byte) : hex2 (hexChar (v.extractLsb' 4 4)) (hexChar (v.extractLsb' 0 4)) = v := by
  apply BitVec.eq_of_toNat_eq
  simp only [hex2_toNat, hexDigit_hexChar, BitVec.extractLsb'_toNat]
  omega

/-- The four digits written for a 16-bit value are read back as that value. -/
theorem hex4_hexChar (v : Word) :
    hex4 (hexChar (v.extractLsb' 12 4)) (hexChar (v.extractLsb' 8 4)) (hexChar (v.extractLsb' 4 4))
      (hexChar (v.extractLsb' 0 4)) = v := by
  apply BitVec.eq_of_toNat_eq
  simp only [hex4_toNat, hexDigit_hexChar, BitVec.extractLsb'_toNat]
  omega

/-! ### The pan control byte (30_encoding.md R67) -/

/-- A bit of a byte is set exactly when the byte under that bit's mask is not 0. -/
theorem getLsbD_iff_and_mask (v : Byte) (i : Nat) (hi : i < 8) :
    v.getLsbD i = true ↔ v &&& BitVec.twoPow 8 i ≠ 0 := by
  have hmask : BitVec.twoPow 8 i ≠ 0 := by decide +revert
  rw [BitVec.and_twoPow]
  split <;> simp_all

/-- Settles O5: a direction is one bit, tested by its mask; the amount is the low four bits. -/
theorem panByteFields : Obligations.PanByteFields := by
  intro v
  refine ⟨getLsbD_iff_and_mask v 7 (by decide), getLsbD_iff_and_mask v 6 (by decide), getLsbD_iff_and_mask v 5 (by decide),
    getLsbD_iff_and_mask v 4 (by decide), ?_⟩
  simp only [Pan.ofByte, BitVec.extractLsb'_toNat, BitVec.toNat_and]
  exact (Nat.and_two_pow_sub_one_eq_mod v.toNat 4).symm

theorem getLsbD_ite_zero (b : Bool) (m : Byte) (i : Nat) :
    (if b then m else 0).getLsbD i = (b && m.getLsbD i) := by
  cases b <;> simp

/-- The bits of a pan byte: each direction at its mask's bit, the amount below them. -/
theorem getLsbD_toByte (v : Pan) (i : Nat) : v.toByte.getLsbD i =
    (v.down && decide (7 = i) || v.right && decide (6 = i) || v.up && decide (5 = i) || v.left && decide (4 = i)
      || v.amount.getLsbD i) := by
  change ((if v.down then BitVec.twoPow 8 7 else 0) ||| (if v.right then BitVec.twoPow 8 6 else 0)
    ||| (if v.up then BitVec.twoPow 8 5 else 0) ||| (if v.left then BitVec.twoPow 8 4 else 0)
    ||| v.amount.setWidth 8).getLsbD i = _
  have hamount : (v.amount.setWidth 8).getLsbD i = v.amount.getLsbD i := by
    rw [BitVec.getLsbD_setWidth, Bool.and_eq_right_iff_imp, decide_eq_true_eq]
    exact fun h => Nat.lt_trans (BitVec.lt_of_getLsbD h) (by decide)
  simp only [BitVec.getLsbD_or, getLsbD_ite_zero, BitVec.getLsbD_twoPow, hamount]
  rfl

/-- The fields read from a pan byte are the fields it was made of. -/
theorem ofByte_toByte (v : Pan) : Pan.ofByte v.toByte = v := by
  have hamount : v.toByte.extractLsb' 0 4 = v.amount := by
    ext i hi
    have below : 7 ≠ i ∧ 6 ≠ i ∧ 5 ≠ i ∧ 4 ≠ i := by omega
    simp [getLsbD_toByte, below, hi]
  simp [Pan.ofByte, hamount, getLsbD_toByte, -BitVec.getLsbD_eq_getElem]

/-! ### The round trip (30_encoding.md R60-R68) -/

/-- Settles O1: for each constructor the decoder's equation at its opcode byte, and the operand read back from its digits;
an INVALID's byte names no other row. -/
theorem decodeEncodeRoundTrip : Obligations.DecodeEncodeRoundTrip := by
  intro i rest hwf
  cases i with
  | e v => exact (decode_e rfl).trans (congrArg Instr.e (hex2_hexChar v))
  | s v => exact (decode_s rfl).trans (congrArg Instr.s (hex2_hexChar v))
  | a => exact decode_a rfl
  | p v =>
    have hv : Pan.ofByte (hex2 _ _) = v := (congrArg Pan.ofByte (hex2_hexChar v.toByte)).trans (ofByte_toByte v)
    exact (decode_p rfl).trans (congrArg Instr.p hv)
  | w v => exact (decode_w rfl).trans (congrArg Instr.w (hex4_hexChar v))
  | x => exact decode_x rfl
  | nul => exact decode_nul rfl
  | invalid b =>
    have hb : b ∉ namedOpcodes := by simpa [Instr.wellFormed] using hwf
    exact decode_invalid hb

end Sys2Proof

namespace Sys2Proof.Machine

/-! ### The instruction at PC (30_encoding.md R62, R64, R66) -/

section

variable {s : State}

theorem fetch_e (h : s.rom.read s.pc.toNat = 0x65) :
    s.fetch = .e (hex2 (s.rom.read (s.pc.toNat + 1)) (s.rom.read (s.pc.toNat + 2))) := decode_e h

theorem fetch_s (h : s.rom.read s.pc.toNat = 0x73) :
    s.fetch = .s (hex2 (s.rom.read (s.pc.toNat + 1)) (s.rom.read (s.pc.toNat + 2))) := decode_s h

theorem fetch_a (h : s.rom.read s.pc.toNat = 0x61) : s.fetch = .a := decode_a h

theorem fetch_p (h : s.rom.read s.pc.toNat = 0x70) :
    s.fetch = .p (Pan.ofByte (hex2 (s.rom.read (s.pc.toNat + 1)) (s.rom.read (s.pc.toNat + 2)))) := decode_p h

theorem fetch_w (h : s.rom.read s.pc.toNat = 0x77) :
    s.fetch = .w (hex4 (s.rom.read (s.pc.toNat + 1)) (s.rom.read (s.pc.toNat + 2))
      (s.rom.read (s.pc.toNat + 3)) (s.rom.read (s.pc.toNat + 4))) := decode_w h

theorem fetch_x (h : s.rom.read s.pc.toNat = 0x78) : s.fetch = .x := decode_x h

theorem fetch_nul (h : s.rom.read s.pc.toNat = 0x00) : s.fetch = .nul := decode_nul h

end

/-- Settles O4: the operand fetched is `hex2` or `hex4` of the bytes after PC, and these are sums on naturals. -/
theorem operandsAreAssembledBigEndian : Obligations.OperandsAreAssembledBigEndian := fun _ =>
  ⟨fun h => ⟨_, fetch_e h, hex2_toNat _ _⟩, fun h => ⟨_, fetch_s h, hex2_toNat _ _⟩,
    fun h => ⟨_, fetch_p h, hex2_toNat _ _⟩, fun h => ⟨_, fetch_w h, hex4_toNat _ _ _ _⟩⟩

end Sys2Proof.Machine
end

section
/-! SUPPORT. What a well-formed Program (30_encoding.md R71) promises of the instruction at an opcode position and of the
start of each sequence, the steps that keep the place in the sequence; and on them the settled statement that such a Program
never raises INVALID. -/

namespace Sys2Proof

/-- Execution goes on at the next instruction, at once or after a finite wait: all but the restarts (40_interpreter.md
R89-R91) and the `w` that halts (R87 (b)). -/
def Instr.continues : Instr → Bool
  | .e _ | .s _ | .a | .p _ => true
  | .w v => v != Machine.waitHalt
  | .x | .nul | .invalid _ => false

theorem Format.length_le (f : Format) : f.length ≤ 5 := by
  cases f <;> decide

end Sys2Proof

namespace Sys2Proof.Machine

/-! ### Walks and opcode positions (30_encoding.md R71) -/

section

variable {r : Rom}

/-- A walk takes no harm from more fuel. -/
theorem walks_succ {fuel a : Nat} (h : r.walks fuel a = true) : r.walks (fuel + 1) a = true := by
  induction fuel generalizing a with
  | zero => cases h
  | succ fuel ih =>
    rw [Rom.walks] at h ⊢
    split at h
    next hop =>
      rw [if_pos hop]
      simp only [Bool.and_eq_true] at h ⊢
      exact h.imp_right ih
    next hop =>
    rw [if_neg hop]
    split at h
    next ha =>
      rw [if_pos ha]
      exact ih h
    next ha =>
    rw [if_neg ha]
    split at h
    next hw =>
      rw [if_pos hw]
      simp only [Bool.and_eq_true, Bool.or_eq_true] at h ⊢
      exact h.imp_right (Or.imp_right ih)
    next hw =>
      rw [if_neg hw]
      exact h

/-- What stands at an opcode position, and where the walk goes on. -/
theorem opcodePosition_cases {a : Nat} (h : r.opcodePosition a = true) :
    (r.read a = 0x65 ∨ r.read a = 0x73 ∨ r.read a = 0x70) ∧ r.opcodePosition (a + 3) = true
    ∨ r.read a = 0x61 ∧ r.opcodePosition (a + 1) = true
    ∨ r.read a = 0x77
      ∧ (hex4 (r.read (a + 1)) (r.read (a + 2)) (r.read (a + 3)) (r.read (a + 4)) = waitHalt
        ∨ r.opcodePosition (a + 5) = true)
    ∨ r.read a = 0x78 ∨ r.read a = 0x00 := by
  rw [Rom.opcodePosition, Rom.walks] at h
  split at h
  next hop =>
    simp only [Bool.and_eq_true] at h
    exact .inl ⟨hop, walks_succ h.2⟩
  split at h
  next ha => exact .inr (.inl ⟨ha, walks_succ h⟩)
  split at h
  next hw =>
    simp only [Bool.and_eq_true, Bool.or_eq_true, beq_iff_eq] at h
    exact .inr (.inr (.inl ⟨hw, h.2.imp_right walks_succ⟩))
  · exact .inr (.inr (.inr (of_decide_eq_true h)))

theorem opcodePosition_zero (hwf : r.wellFormed) : r.opcodePosition 0 = true := by
  obtain ⟨-, -, -, hzero, -⟩ := hwf
  exact hzero

theorem opcodePosition_after_x (hwf : r.wellFormed) {a : Nat} (ha : a < r.size - 1) (hx : r.read a = 0x78) :
    r.opcodePosition (a + 1) = true := by
  obtain ⟨-, -, -, -, hafter⟩ := hwf
  exact hafter a ha hx

/-- A byte of a well-formed Program that is not 0x00 stands before the final NUL. -/
theorem lt_of_read_ne_nul (hwf : r.wellFormed) {a : Nat} (h : r.read a ≠ 0x00) : a < r.size - 1 := by
  obtain ⟨-, hlast, -⟩ := hwf
  by_contra hge
  obtain rfl | hpast : a = r.size - 1 ∨ r.size ≤ a := by omega
  · exact h hlast
  · exact h (rom_read_past_end r a hpast)

/-- The selection scan of a well-formed Program ends at an opcode position: at 0, or just after the `x` it counted last. -/
theorem opcodePosition_scan (hwf : r.wellFormed) : ∀ fuel a left : Nat,
    (left = 0 → r.opcodePosition a = true) → r.opcodePosition (r.scan fuel a left) = true
  | 0, _, 0, h => h rfl
  | _ + 1, _, 0, h => h rfl
  | 0, _, _ + 1, _ => opcodePosition_zero hwf
  | fuel + 1, a, left + 1, _ => by
    rw [Rom.scan]
    split
    · exact opcodePosition_zero hwf
    next hnul =>
    split
    next hx =>
      exact opcodePosition_scan hwf fuel (a + 1) left fun _ =>
        opcodePosition_after_x hwf (lt_of_read_ne_nul hwf hnul) hx
    next => exact opcodePosition_scan hwf fuel (a + 1) (left + 1) nofun

theorem opcodePosition_sequenceStart (hwf : r.wellFormed) (n : Nat) : r.opcodePosition (r.sequenceStart n) = true :=
  opcodePosition_scan hwf _ _ _ fun _ => opcodePosition_zero hwf

end

/-! ### The instruction at an opcode position -/

variable {s t : State}

/-- PC stands at an opcode position of the Program. -/
abbrev State.atOpcode (s : State) : Prop := s.rom.opcodePosition s.pc.toNat = true

/-- At an opcode position stands an instruction after which the walk goes on, the `w` that halts, or a restart that is no
INVALID. -/
theorem fetch_of_atOpcode (h : s.atOpcode) :
    s.fetch.continues = true ∧ s.rom.opcodePosition (s.pc.toNat + s.fetch.length) = true
    ∨ s.fetch = .w waitHalt ∨ s.fetch = .x ∨ s.fetch = .nul := by
  obtain ⟨he | hs | hp, hnext⟩ | ⟨ha, hnext⟩ | ⟨hw, hnext⟩ | hx | hn := opcodePosition_cases h
  · exact .inl (by rw [fetch_e he]; exact ⟨rfl, hnext⟩)
  · exact .inl (by rw [fetch_s hs]; exact ⟨rfl, hnext⟩)
  · exact .inl (by rw [fetch_p hp]; exact ⟨rfl, hnext⟩)
  · exact .inl (by rw [fetch_a ha]; exact ⟨rfl, hnext⟩)
  · rw [fetch_w hw]
    by_cases hv : hex4 (s.rom.read (s.pc.toNat + 1)) (s.rom.read (s.pc.toNat + 2)) (s.rom.read (s.pc.toNat + 3))
        (s.rom.read (s.pc.toNat + 4)) = waitHalt
    · exact .inr (.inl (congrArg Instr.w hv))
    · exact .inl ⟨bne_iff_ne.2 hv, hnext.resolve_left hv⟩
  · exact .inr (.inr (.inl (fetch_x hx)))
  · exact .inr (.inr (.inr (fetch_nul hn)))

/-- An instruction that continues falls through to the next one and records nothing. -/
theorem exec_of_continues {i : Instr} (hi : i.continues = true) (h : exec i s = .next t) :
    t.pc = s.pc + BitVec.ofNat 16 i.length ∧ t.trace = s.trace := by
  cases i with
  | e v => cases (exec_e s v).symm.trans h; exact ⟨rfl, rfl⟩
  | s j => cases (exec_s s j).symm.trans h; exact ⟨rfl, rfl⟩
  | a => cases (exec_a s).symm.trans h; exact ⟨rfl, rfl⟩
  | p v => cases (exec_p s v).symm.trans h; exact ⟨rfl, rfl⟩
  | w v => cases (exec_w s v).symm.trans h; exact ⟨rfl, rfl⟩
  | x => cases hi
  | nul => cases hi
  | invalid b => cases hi

/-- Past an instruction that is no NUL the fall-through does not wrap (40_interpreter.md R94). -/
theorem toNat_fallThrough (hl : s.rom.legalSize) (hn : s.fetch ≠ .nul) :
    (s.pc + BitVec.ofNat 16 s.fetch.length).toNat = s.pc.toNat + s.fetch.length := by
  have hpc : s.pc.toNat < s.rom.size := not_le.1 (mt (fetch_past_end s) hn)
  have hsize : s.rom.size ≤ 65531 := hl.2
  have hlen : s.fetch.length ≤ 5 := s.fetch.format.length_le
  rw [BitVec.toNat_add, BitVec.toNat_ofNat]
  omega

/-- A selection, and so a restart, leaves PC at an opcode position. -/
theorem atOpcode_select (hwf : s.rom.wellFormed) (n : Nat) : (s.select n).atOpcode := by
  have hle := sequenceStart_le s.rom n
  have hsize : s.rom.size ≤ 65531 := hwf.1.2
  have hpc : (s.select n).pc.toNat = s.rom.sequenceStart n := by
    rw [select_eq, BitVec.toNat_ofNat]
    omega
  rw [State.atOpcode, hpc]
  exact opcodePosition_sequenceStart hwf n

/-! ### What one step has to keep -/

/-- Every INVALID restart on `t`'s record stands on `s`'s record already. -/
def NoNewInvalid (s t : State) : Prop :=
  ∀ (b : Byte) (p : Word), Event.restart (.invalid b) p ∈ t.trace → Event.restart (.invalid b) p ∈ s.trace

theorem NoNewInvalid.of_trace_eq (h : t.trace = s.trace) : NoNewInvalid s t :=
  fun _ _ hmem => h ▸ hmem

theorem NoNewInvalid.of_trace_cons {e : Event} (h : t.trace = e :: s.trace)
    (he : ∀ b p, e ≠ .restart (.invalid b) p) : NoNewInvalid s t := by
  intro b p hmem
  rw [h] at hmem
  exact (List.mem_cons.1 hmem).resolve_left fun heq => he b p heq.symm

/-- What is claimed of a step from `s` to `t`. -/
def StaysInSequence (s t : State) : Prop :=
  t.inSequence ∧ (s.atOpcode → ¬(s.ctl = .run ∧ s.fetch = .w waitHalt) → t.atOpcode) ∧ NoNewInvalid s t

theorem StaysInSequence.of_atOpcode (hpos : t.atOpcode) (hnew : NoNewInvalid s t) : StaysInSequence s t :=
  ⟨.inl hpos, fun _ _ => hpos, hnew⟩

/-- `t` is outside the run stage, at the place in the sequence where `s` is. -/
structure KeepsPlace (s t : State) : Prop where
  rom : t.rom = s.rom
  pc : t.pc = s.pc
  wait : t.wait = s.wait
  ctl : t.ctl ≠ .run
  noNewInvalid : NoNewInvalid s t

theorem KeepsPlace.staysInSequence (h : KeepsPlace s t) (hs : s.inSequence) : StaysInSequence s t := by
  have hpos : t.atOpcode ↔ s.atOpcode := by rw [State.atOpcode, h.rom, h.pc]
  exact ⟨hs.imp hpos.2 fun hhalt => ⟨h.wait.trans hhalt.1, h.ctl⟩, fun hat _ => hpos.2 hat, h.noNewInvalid⟩

/-! ### The scheduler's operations keep the place -/

section

variable (s)

/-- A move of CTL to a position outside the run stage keeps the place, whatever it writes of the fields that are no part
of the place. -/
theorem keepsPlace_frame (g : Memory) (l d : Nat) {c : Ctl} (hc : c ≠ .run) :
    KeepsPlace s { s with grid := g, lastTick := l, drawCount := d, ctl := c } :=
  ⟨rfl, rfl, rfl, hc, .of_trace_eq rfl⟩

theorem waitTick_keepsPlace : KeepsPlace s s.waitTick := by
  obtain ⟨-, hs⟩ | ⟨-, -, hs⟩ | ⟨-, -, hs⟩ := waitTick_cases s <;> rw [hs]
  · exact keepsPlace_frame s _ _ _ nofun
  · exact keepsPlace_frame s _ _ _ nofun
  · exact keepsPlace_frame s _ _ _ nofun

theorem topStep_keepsPlace : KeepsPlace s s.topStep := by
  rw [State.topStep]
  split
  · exact keepsPlace_frame s _ _ _ nofun
  · exact waitTick_keepsPlace s

theorem fadeStep_keepsPlace : KeepsPlace s s.fadeStep := keepsPlace_frame s _ _ _ nofun

theorem automatonUpdate_keepsPlace : KeepsPlace s s.automatonUpdate := keepsPlace_frame s _ _ _ nofun

/-- A push is recorded, and it is no restart. -/
theorem pushStep_keepsPlace : KeepsPlace s s.pushStep := ⟨rfl, rfl, rfl, nofun, .of_trace_cons rfl nofun⟩

theorem returnFromAdvance_keepsPlace : KeepsPlace s s.returnFromAdvance := by
  rw [returnFromAdvance_eq]
  exact keepsPlace_frame s _ _ _ (by split <;> nofun)

variable {s}

theorem waitPhase_keepsPlace (hc : s.ctl ≠ .run) : KeepsPlace s s.waitPhase := by
  rw [State.waitPhase]
  split
  · exact keepsPlace_frame s _ _ _ nofun
  · exact keepsPlace_frame s _ _ _ hc

theorem autoWait_keepsPlace (hc : s.ctl ≠ .run) : ∀ n, KeepsPlace s (s.autoWait n)
  | 0 => pushStep_keepsPlace s
  | n + 1 => by
    rw [State.autoWait]
    split
    · exact keepsPlace_frame s _ _ _ hc
    · exact keepsPlace_frame s _ _ _ nofun

end

/-! ### Each step of a well-formed Program -/

/-- The wait stage enters the run stage only when no halt is on, and so at an opcode position. -/
theorem waitStage_staysInSequence (hs : s.inSequence) : StaysInSequence s s.waitStage := by
  have hpos (hwait : s.wait ≠ waitHalt) : s.atOpcode := hs.resolve_right fun hhalt => hwait hhalt.1
  obtain ⟨h0, hu⟩ | ⟨-, hu⟩ | ⟨h1, hu⟩ | ⟨-, hhalt, -, hu⟩ := waitStage_cases s <;> rw [hu]
  · exact .of_atOpcode (hpos (by rw [h0]; decide)) (.of_trace_eq rfl)
  · exact (returnFromAdvance_keepsPlace s).staysInSequence hs
  · exact .of_atOpcode (hpos (by rw [h1]; decide)) (.of_trace_eq rfl)
  · exact .of_atOpcode (hpos hhalt) (.of_trace_eq rfl)

/-- A sequence switch selects an opcode position and clears WAIT, so the run stage starts there. -/
theorem advanceEntry_staysInSequence (hwf : s.rom.wellFormed) (hs : s.inSequence) :
    StaysInSequence s s.advanceEntry := by
  rw [State.advanceEntry, State.sequenceSwitch]
  split
  · exact waitStage_staysInSequence hs
  · obtain ⟨w, c, hu⟩ := waitStage_frame (s.select s.inputs.sel)
    rw [hu]
    exact .of_atOpcode (atOpcode_select hwf _) (.of_trace_eq rfl)

/-- While the core is down it keeps its place; WAKE resets it to offset 0. -/
theorem downStep_staysInSequence (hwf : s.rom.wellFormed) (hs : s.inSequence) (hc : s.ctl ≠ .run) :
    StaysInSequence s s.downStep := by
  rw [State.downStep]
  split
  · exact .of_atOpcode (opcodePosition_zero hwf) (.of_trace_eq rfl)
  · exact (keepsPlace_frame s _ _ _ hc).staysInSequence hs

/-- A restart that is no INVALID goes to the start of the selected sequence. -/
theorem restart_staysInSequence (hwf : s.rom.wellFormed) {cause : RestartCause} (hcause : ∀ b, cause ≠ .invalid b) :
    StaysInSequence s (s.restart cause) :=
  .of_atOpcode (atOpcode_select hwf s.selL)
    (.of_trace_cons rfl fun b _ he => hcause b (Event.restart.inj he).1)

/-- An instruction of the run stage: by what `fetch_of_atOpcode` says can stand at PC. -/
theorem exec_staysInSequence (hwf : s.rom.wellFormed) (hat : s.atOpcode) (hc : s.ctl = .run)
    (h : exec s.fetch s = .next t) : StaysInSequence s t := by
  obtain ⟨hcont, hnext⟩ | hi | hi | hi := fetch_of_atOpcode hat
  · obtain ⟨hpc, htrace⟩ := exec_of_continues hcont h
    have hn : s.fetch ≠ .nul := fun hn => by simp [hn, Instr.continues] at hcont
    refine .of_atOpcode ?_ (.of_trace_eq htrace)
    rwa [State.atOpcode, programIsImmutable s t ((step_run hwf.1 hc).trans h), hpc, toNat_fallThrough hwf.1 hn]
  · cases (exec_w s waitHalt).symm.trans (hi ▸ h)
    exact ⟨.inr ⟨rfl, (returnFromAdvance_keepsPlace s).ctl⟩, fun _ hne => absurd ⟨hc, hi⟩ hne, .of_trace_eq rfl⟩
  · cases (exec_x s).symm.trans (hi ▸ h)
    exact restart_staysInSequence hwf nofun
  · cases (exec_nul s).symm.trans (hi ▸ h)
    exact restart_staysInSequence hwf nofun

/-- Settles O22: an instruction of the run stage, the entry of an advance call and the reset on WAKE each go to an opcode
position (or halt); every other step keeps the place. The environment's move touches nothing the claim reads. -/
theorem wellFormedProgramNeverInvalid : Obligations.WellFormedProgramNeverInvalid := by
  intro s t hwf hs h
  have hl := hwf.1
  change StaysInSequence s t
  have moved {u : State} (hu : step s = .next u.environment) (stays : StaysInSequence s u) :
      StaysInSequence s t := by
    cases h.symm.trans hu
    exact stays
  cases hc : s.ctl with
  | top => exact moved (step_top hl hc) ((topStep_keepsPlace s).staysInSequence hs)
  | holdTick => exact moved (step_holdTick hl hc) ((waitTick_keepsPlace s).staysInSequence hs)
  | advance => exact moved (step_advance hl hc) (advanceEntry_staysInSequence hwf hs)
  | run =>
    have hat : s.atOpcode := hs.resolve_right fun hhalt => hhalt.2 hc
    exact exec_staysInSequence hwf hat hc ((step_run hl hc).symm.trans h)
  | fade => exact moved (step_fade hl hc) ((fadeStep_keepsPlace s).staysInSequence hs)
  | push => exact moved (step_push hl hc) ((pushStep_keepsPlace s).staysInSequence hs)
  | holdPhase => exact moved (step_holdPhase hl hc) ((waitPhase_keepsPlace (by simp [hc])).staysInSequence hs)
  | update => exact moved (step_update hl hc) ((automatonUpdate_keepsPlace s).staysInSequence hs)
  | holdAuto n => exact moved (step_holdAuto hl hc) ((autoWait_keepsPlace (by simp [hc]) n).staysInSequence hs)
  | down => exact moved (step_down hl hc) (downStep_staysInSequence hwf hs (by simp [hc]))

end Sys2Proof.Machine
end

section
/-! SUPPORT. Each write of the core and the environment's move keep the invariant, each under the side conditions the
written field has in `Inv`; the operations of a step are composed of these writes; and on them the settled statement that
every step keeps the invariant (40_interpreter.md R94, 44_scheduler.md R166). -/

namespace Sys2Proof.Machine

variable {s t : State}

/-! ### The writes of the core -/

theorem Inv.setGrid (h : Inv s) {g : Memory} (hg : g.wf ∧ g.below gridCells) : Inv (s.setGrid g) :=
  { h with gridWf := hg.1, gridBound := hg.2 }

theorem Inv.setEff (h : Inv s) (v : Byte) : Inv (s.setEff v) := { h with }

theorem Inv.setDrawCount (h : Inv s) (n : Nat) : Inv (s.setDrawCount n) := { h with }

theorem Inv.record (h : Inv s) (e : Event) : Inv (s.record e) := { h with }

theorem Inv.setPc (h : Inv s) {v : Word} (hv : v.toNat ≤ s.rom.size + 4) : Inv (s.setPc v) :=
  { h with pcBound := hv }

theorem Inv.setWait (h : Inv s) {v : Word} (hv : s.ctl = .run → v = 0x0000) : Inv (s.setWait v) :=
  { h with runWait := hv }

theorem Inv.setSelL (h : Inv s) {n : Nat} (hn : n < 2 ^ s.params.selW) (hrun : s.ctl = .run → n = s.inputs.sel) :
    Inv (s.setSelL n) :=
  { h with selLFits := hn, runSel := hrun }

theorem Inv.setCtl (h : Inv s) {c : Ctl} (hc : c.legal s.mode s.params.autoWaitTicks = true)
    (hrun : c = .run → s.wait = 0x0000 ∧ s.selL = s.inputs.sel) (hfade : c = .fade → s.lastTick % 4 = 0) :
    Inv (s.setCtl c) :=
  { h with ctlLegal := hc, runWait := fun e => (hrun e).1, runSel := fun e => (hrun e).2, fadeTick := hfade }

/-- LAST_TICK <- TICK, away from a pending fade, which is owed to the tick consumed before. -/
theorem Inv.consumeTick (h : Inv s) (hfade : s.ctl ≠ .fade) : Inv (s.setLastTick s.inputs.tick) :=
  { h with lastTickFits := h.tickFits, tickStrict := fun _ => .inl rfl, fadeTick := fun e => absurd e hfade }

/-- The position the core is at is one of the MODE. -/
theorem Inv.legalAt (h : Inv s) {c : Ctl} (hc : s.ctl = c) : c.legal s.mode s.params.autoWaitTicks = true :=
  hc ▸ h.ctlLegal

/-! ### Selection, return and fall-through (40_interpreter.md R84, R94) -/

theorem toNat_sequenceStart (hl : s.rom.legalSize) (n : Nat) :
    (BitVec.ofNat 16 (s.rom.sequenceStart n)).toNat = s.rom.sequenceStart n := by
  have hle := sequenceStart_le s.rom n
  have hsize : s.rom.size ≤ 65531 := hl.2
  rw [BitVec.toNat_ofNat]
  omega

theorem Inv.select (h : Inv s) {n : Nat} (hn : n < 2 ^ s.params.selW) (hrun : s.ctl = .run → n = s.inputs.sel) :
    Inv (s.select n) := by
  have hpc : (BitVec.ofNat 16 (s.rom.sequenceStart n)).toNat ≤ s.rom.size + 4 := by
    rw [toNat_sequenceStart h.romSize]
    exact (sequenceStart_le s.rom n).trans (Nat.le_add_right _ 4)
  exact ((h.setPc hpc).setWait fun _ => rfl).setSelL hn hrun

theorem Inv.returnFromAdvance (h : Inv s) (hm : s.mode = .interp) : Inv s.returnFromAdvance := by
  rw [State.returnFromAdvance]
  split
  next htick => exact h.setCtl (by simp [Ctl.legal, hm]) nofun fun _ => htick
  next => exact h.setCtl rfl nofun nofun

/-- An instruction that is no NUL stands below PROG_SIZE and has at most five bytes. -/
theorem Inv.fallThrough (h : Inv s) (hn : s.fetch ≠ .nul) : Inv (s.advancePc s.fetch.format) := by
  have hpc : s.pc.toNat < s.rom.size := not_le.1 (mt (fetch_past_end s) hn)
  have hlen : s.fetch.length ≤ 5 := s.fetch.format.length_le
  refine h.setPc ((toNat_fallThrough h.romSize hn).trans_le ?_)
  omega

/-! ### The operations of the scheduler -/

theorem Inv.waitTick (h : Inv s) : Inv s.waitTick := by
  have consumed {c : Ctl} (hc : c.legal s.mode s.params.autoWaitTicks = true) (hrun : c ≠ .run) (hfade : c ≠ .fade) :
      Inv { s with lastTick := s.inputs.tick, ctl := c } :=
    (h.setCtl hc (absurd · hrun) (absurd · hfade)).consumeTick hfade
  obtain ⟨-, hs⟩ | ⟨-, hm, hs⟩ | ⟨-, hm, hs⟩ := waitTick_cases s <;> rw [hs]
  · exact h.setCtl rfl nofun nofun
  · exact consumed (by simp [Ctl.legal, hm]) nofun nofun
  · exact consumed (by simp [Ctl.legal, hm]) nofun nofun

theorem Inv.topStep (h : Inv s) : Inv s.topStep := by
  rw [State.topStep]
  split
  · exact (h.setGrid ⟨⟨.nil, nofun⟩, nofun⟩).setCtl rfl nofun nofun
  · exact h.waitTick

theorem Inv.enterRun (h : Inv s) (hm : s.mode = .interp) (hwait : s.wait = 0x0000) (hsel : s.selL = s.inputs.sel) :
    Inv (s.setCtl .run) :=
  h.setCtl (by simp [Ctl.legal, hm]) (fun _ => ⟨hwait, hsel⟩) nofun

/-- The wait stage enters the run stage only with WAIT = 0. -/
theorem Inv.waitStage (h : Inv s) (hm : s.mode = .interp) (hsel : s.selL = s.inputs.sel) (hc : s.ctl ≠ .run) :
    Inv s.waitStage := by
  obtain ⟨h0, hs⟩ | ⟨-, hs⟩ | ⟨-, hs⟩ | ⟨-, -, -, hs⟩ := waitStage_cases s <;> rw [hs]
  · exact h.enterRun hm h0 hsel
  · exact h.returnFromAdvance hm
  · exact (h.setWait fun _ => rfl).enterRun hm rfl hsel
  · exact (h.setWait (absurd · hc)).returnFromAdvance hm

/-- After the sequence switch SEL_L is SEL (40_interpreter.md R81). -/
theorem Inv.advanceEntry (h : Inv s) (hc : s.ctl = .advance) : Inv s.advanceEntry := by
  have hm : s.mode = .interp := by simpa [Ctl.legal] using h.legalAt hc
  have hrun : s.ctl ≠ .run := by simp [hc]
  rw [State.advanceEntry, State.sequenceSwitch]
  split
  next hsel => exact h.waitStage hm hsel.symm hrun
  next => exact (h.select h.selFits fun _ => rfl).waitStage hm rfl hrun

theorem Inv.fadeStep (h : Inv s) (hc : s.ctl = .fade) : Inv s.fadeStep :=
  (h.setGrid (fadeGrid_keeps s.grid)).setCtl (h.legalAt hc :) nofun nofun

theorem Inv.pushStep (h : Inv s) : Inv s.pushStep := (h.record _).setCtl rfl nofun nofun

theorem Inv.waitPhase (h : Inv s) (hc : s.ctl = .holdPhase) : Inv s.waitPhase := by
  rw [State.waitPhase]
  split
  · exact h.setCtl (h.legalAt hc :) nofun nofun
  · exact h

theorem Inv.automatonUpdate (h : Inv s) (hc : s.ctl = .update) : Inv s.automatonUpdate := by
  have hm : s.mode = .automaton := by simpa [Ctl.legal] using h.legalAt hc
  have hgrid := updateGrid_keeps (drawSparks s.params.nDiscard 16 s.drawCount).1 s.grid
    (by rw [drawSparks_length]; decide) ⟨h.gridWf, h.gridBound⟩
  exact ((h.setGrid hgrid).setDrawCount _).setCtl (by simp [Ctl.legal, hm]) nofun nofun

theorem Inv.autoWait (h : Inv s) : ∀ {n : Nat}, s.ctl = .holdAuto n → Inv (s.autoWait n)
  | 0, _ => h.pushStep
  | n + 1, hc => by
    obtain ⟨hm, hn⟩ : s.mode = .automaton ∧ n + 1 ≤ s.params.autoWaitTicks := by
      simpa [hc, Ctl.legal] using h.ctlLegal
    have hlegal : (Ctl.holdAuto n).legal s.mode s.params.autoWaitTicks = true := by
      simpa [Ctl.legal, hm] using Nat.le_of_succ_le hn
    rw [State.autoWait]
    split
    · exact h
    · exact (h.consumeTick (by simp [hc])).setCtl hlegal nofun nofun

theorem Inv.coreReset (h : Inv s) : Inv s.coreReset :=
  { h with
    gridWf := ⟨.nil, nofun⟩
    gridBound := nofun
    selLFits := Nat.two_pow_pos _
    lastTickFits := h.tickFits
    tickStrict := fun _ => .inl rfl
    ctlLegal := rfl
    pcBound := Nat.zero_le _
    runWait := nofun
    runSel := nofun
    fadeTick := nofun }

theorem Inv.downStep (h : Inv s) : Inv s.downStep := by
  rw [State.downStep]
  split
  · exact h.coreReset
  · exact h

/-! ### The instructions -/

theorem Inv.restart (h : Inv s) (hc : s.ctl = .run) (cause : RestartCause) : Inv (s.restart cause) := by
  have hm : s.mode = .interp := by simpa [Ctl.legal] using h.legalAt hc
  exact ((h.record _).select h.selLFits h.runSel).returnFromAdvance hm

/-- An instruction of the run stage: its writes on top of the fall-through, or a restart. -/
theorem Inv.exec (h : Inv s) (hc : s.ctl = .run) (hstep : exec s.fetch s = .next t) : Inv t := by
  have hgrid : s.grid.wf ∧ s.grid.below gridCells := ⟨h.gridWf, h.gridBound⟩
  have fall {i : Instr} (hi : s.fetch = i) (hn : i ≠ .nul) : Inv (s.advancePc i.format) :=
    hi ▸ h.fallThrough (hi ▸ hn)
  cases hi : s.fetch with
  | e v => cases (exec_e s v).symm.trans (hi ▸ hstep); exact (fall hi nofun).setEff v
  | s i =>
    cases (exec_s s i).symm.trans (hi ▸ hstep)
    exact (fall hi nofun).setGrid (write_keeps _ _ _ i.isLt hgrid)
  | a =>
    cases (exec_a s).symm.trans (hi ▸ hstep)
    exact (fall hi nofun).setGrid ⟨gridOf_wf _, gridOf_below _⟩
  | p v =>
    cases (exec_p s v).symm.trans (hi ▸ hstep)
    exact (fall hi nofun).setGrid (pan_keeps v s.grid hgrid)
  | w v =>
    cases (exec_w s v).symm.trans (hi ▸ hstep)
    have hm : s.mode = .interp := by simpa [Ctl.legal] using h.legalAt hc
    by_cases hv : v = 0x0000
    · rw [if_pos hv]
      exact (fall hi nofun).setWait fun _ => hv
    · rw [if_neg hv]
      exact ((fall hi nofun).returnFromAdvance hm).setWait fun e => absurd e (returnFromAdvance_keepsPlace _).ctl
  | x => cases (exec_x s).symm.trans (hi ▸ hstep); exact h.restart hc _
  | nul => cases (exec_nul s).symm.trans (hi ▸ hstep); exact h.restart hc _
  | invalid b => cases (exec_invalid s b).symm.trans (hi ▸ hstep); exact h.restart hc _

/-! ### The environment's move -/

theorem nextInputs_sel_lt (p : Params) (c : Ctl) (l n : Nat) (i : Inputs) (h : i.sel < 2 ^ p.selW) :
    (nextInputs p c l n i).sel < 2 ^ p.selW := by
  simp only [nextInputs]
  split
  · exact Nat.mod_lt _ (Nat.two_pow_pos _)
  · exact h

theorem nextInputs_tick_lt (p : Params) (c : Ctl) (l n : Nat) (i : Inputs) (h : i.tick < 2 ^ p.tickW) :
    (nextInputs p c l n i).tick < 2 ^ p.tickW := by
  simp only [nextInputs]
  split
  · exact h
  · exact nextTick_lt p l i.tick n h

/-- A strict synchronizer keeps TICK at the value consumed last or at the next one (D21, log 13). -/
theorem nextInputs_tick_strict (p : Params) (c : Ctl) (l n : Nat) (i : Inputs) (hp : p.tickStrict = true)
    (h : i.tick = l ∨ i.tick = (l + 1) % 2 ^ p.tickW) :
    (nextInputs p c l n i).tick = l ∨ (nextInputs p c l n i).tick = (l + 1) % 2 ^ p.tickW := by
  simp only [nextInputs]
  split
  · exact h
  · simp only [nextTick, if_pos hp]
    split
    · exact .inr rfl
    · exact h

theorem Inv.environment (h : Inv s) : Inv s.environment :=
  { h with
    selFits := nextInputs_sel_lt _ _ _ _ _ h.selFits
    tickFits := nextInputs_tick_lt _ _ _ _ _ h.tickFits
    tickStrict := fun hp => nextInputs_tick_strict _ _ _ _ _ hp (h.tickStrict hp)
    runSel := fun hc => by
      have hc : s.ctl = .run := hc
      rw [environment_sel_of_not_betweenCalls (by simp [hc, Ctl.betweenCalls])]
      exact h.runSel hc }

/-! ### Every step -/

/-- Settles O40: at each controller position the core's operation keeps the invariant, and so does the environment's move
after it. -/
theorem stepKeepsInv : Obligations.StepKeepsInv := by
  intro s t h hstep
  have hl := h.romSize
  have moved {u : State} (hu : step s = .next u.environment) (hinv : Inv u) : Inv t := by
    cases hstep.symm.trans hu
    exact hinv.environment
  cases hc : s.ctl with
  | top => exact moved (step_top hl hc) h.topStep
  | holdTick => exact moved (step_holdTick hl hc) h.waitTick
  | advance => exact moved (step_advance hl hc) (h.advanceEntry hc)
  | run => exact h.exec hc ((step_run hl hc).symm.trans hstep)
  | fade => exact moved (step_fade hl hc) (h.fadeStep hc)
  | push => exact moved (step_push hl hc) h.pushStep
  | holdPhase => exact moved (step_holdPhase hl hc) (h.waitPhase hc)
  | update => exact moved (step_update hl hc) (h.automatonUpdate hc)
  | holdAuto n => exact moved (step_holdAuto hl hc) (h.autoWait hc)
  | down => exact moved (step_down hl hc) h.downStep

end Sys2Proof.Machine
end

section
/-! SUPPORT. The wait stage at each value of WAIT, the selection scan between two offsets, the countdown of a wait, and the
progress an instruction makes in the Program; and on them the settled statements about the interpreter of
40_interpreter.md. -/

namespace Sys2Proof

theorem Format.length_pos (f : Format) : 0 < f.length := by
  cases f <;> decide

end Sys2Proof

namespace Sys2Proof.Machine

variable {s t : State}

/-! ### The instruction decoded at PC (40_interpreter.md R83, R86-R91) -/

/-- Settles O7: the instruction the run stage fetches is the one decoded at PC. -/
theorem stepRunsDecodedInstruction : Obligations.StepRunsDecodedInstruction := by
  rintro s i hl hc rfl -
  exact step_run hl hc

theorem fetch_invalid (h : s.rom.read s.pc.toNat ∉ namedOpcodes) : s.fetch = .invalid (s.rom.read s.pc.toNat) :=
  decode_invalid h

/-- Settles O15: a zero operand leaves the controller in the run stage, any other returns. -/
theorem waitResult : Obligations.WaitResult := by
  refine ⟨fun imm16 s => ?_, fun s => fetch_w⟩
  by_cases h0 : imm16 = 0x0000
  · rw [exec_w, if_pos h0, if_pos h0, h0]
  · rw [exec_w, if_neg h0, if_neg h0]

/-- Settles O16: each of the three instructions is a restart with its own cause. -/
theorem restartResult : Obligations.RestartResult := by
  refine ⟨fun cause i s h => ?_, fun s => ⟨fetch_x, fetch_nul, fetch_invalid⟩⟩
  obtain ⟨rfl, rfl⟩ | ⟨rfl, rfl⟩ | ⟨b, rfl, rfl⟩ := h
  · exact exec_x s
  · exact exec_nul s
  · exact exec_invalid s b

/-! ### The entry of an advance call (40_interpreter.md R81, R82) -/

theorem waitStage_zero (h : s.wait = 0x0000) : s.waitStage = { s with ctl := .run } := by
  rw [State.waitStage, if_pos h]
  rfl

theorem waitStage_halt (h : s.wait = waitHalt) : s.waitStage = s.returnFromAdvance := by
  rw [State.waitStage, if_neg (by rw [h]; decide), if_pos h]

theorem waitStage_one (h : s.wait = 0x0001) : s.waitStage = { s with wait := 0x0000, ctl := .run } := by
  obtain ⟨h0, -⟩ | ⟨hhalt, -⟩ | ⟨-, hs⟩ | ⟨-, -, h1, -⟩ := waitStage_cases s
  · exact absurd (h.symm.trans h0) (by decide)
  · exact absurd (h.symm.trans hhalt) (by decide)
  · exact hs
  · exact absurd h h1

theorem waitStage_counting (hlt : 1 < s.wait.toNat) (hhalt : s.wait.toNat < 0xFFFF) :
    s.waitStage = ({ s with wait := BitVec.ofNat 16 (s.wait.toNat - 1) } : State).returnFromAdvance := by
  obtain ⟨h, -⟩ | ⟨h, -⟩ | ⟨h, -⟩ | ⟨-, -, -, hs⟩ := waitStage_cases s
  · exact absurd (h ▸ hlt) (by decide)
  · exact absurd (h ▸ hhalt) (by decide)
  · exact absurd (h ▸ hlt) (by decide)
  · have hpred : s.wait - 1 = BitVec.ofNat 16 (s.wait.toNat - 1) := by
      bv_omega
    rw [hs, hpred]

theorem advanceEntry_of_steady (h : s.inputs.sel = s.selL) : s.advanceEntry = s.waitStage := by
  rw [State.advanceEntry, State.sequenceSwitch, if_pos h]

/-- A sequence switch clears WAIT, so the call goes on to the run stage. -/
theorem advanceEntry_of_switch (h : s.inputs.sel ≠ s.selL) :
    s.advanceEntry = (s.select s.inputs.sel).setCtl .run := by
  rw [State.advanceEntry, State.sequenceSwitch, if_neg h]
  exact waitStage_zero rfl

/-- Settles O18: the switch writes what `select` writes, and the cleared WAIT sends the call to the run stage. -/
theorem sequenceSwitchEndsAnyWait : Obligations.SequenceSwitchEndsAnyWait := by
  intro s hl hc hsel
  rw [step_advance hl hc, advanceEntry_of_switch hsel]
  rfl

/-- Settles O19: with a steady selector the entry of the call is the wait stage, read at each range of WAIT. -/
theorem waitStageOfAdvance : Obligations.WaitStageOfAdvance := by
  intro s hl hc hsel
  rw [step_advance hl hc, advanceEntry_of_steady hsel]
  refine ⟨fun hhalt => ?_, fun hlt hhalt => ?_, fun hone => ?_, fun hzero => ?_⟩
  · rw [waitStage_halt (BitVec.eq_of_toNat_eq hhalt), returnFromAdvance_eq]
  · rw [waitStage_counting hlt hhalt, returnFromAdvance_eq]
  · rw [waitStage_one (BitVec.eq_of_toNat_eq hone)]
  · rw [waitStage_zero (BitVec.eq_of_toNat_eq hzero)]

/-! ### The countdown of a wait (40_interpreter.md R82) -/

/-- `s` with WAIT = `n` and the controller at `c`: the two fields an entry of a call writes while the selector is steady. -/
def State.waitingAt (s : State) (n : Nat) (c : Ctl) : State := { s with wait := BitVec.ofNat 16 n, ctl := c }

theorem waitingAt_self (s : State) : s.waitingAt s.wait.toNat s.ctl = s := by
  simp [State.waitingAt]

theorem toNat_wait_waitingAt (s : State) (c : Ctl) {n : Nat} (hn : n ≤ 0xFFFE) : (s.waitingAt n c).wait.toNat = n := by
  rw [State.waitingAt, BitVec.toNat_ofNat]
  omega

theorem advanceEntry_waitingAt (hsel : s.inputs.sel = s.selL) (c : Ctl) {n : Nat} (hlt : 1 < n) (hn : n ≤ 0xFFFE) :
    (s.waitingAt n c).advanceEntry = s.waitingAt (n - 1) s.returnFromAdvance.ctl := by
  have hwait := toNat_wait_waitingAt s c hn
  rw [advanceEntry_of_steady (s := s.waitingAt n c) hsel, waitStage_counting (by omega) (by omega), hwait]
  rfl

theorem advanceEntry_waitingAt_one (hsel : s.inputs.sel = s.selL) (c : Ctl) :
    (s.waitingAt 1 c).advanceEntry = s.waitingAt 0 .run := by
  rw [advanceEntry_of_steady (s := s.waitingAt 1 c) hsel, waitStage_one rfl]
  rfl

/-- The first `j` entries of fewer calls than WAIT asks for count down by `j`. -/
theorem iterate_advanceEntry_counting (hsel : s.inputs.sel = s.selL) : ∀ (j n : Nat) (c : Ctl), j + 1 < n → n ≤ 0xFFFE →
    State.advanceEntry^[j + 1] (s.waitingAt n c) = s.waitingAt (n - (j + 1)) s.returnFromAdvance.ctl
  | 0, _, c, hj, hn => advanceEntry_waitingAt hsel c hj hn
  | j + 1, n, c, hj, hn => by
    rw [Function.iterate_succ_apply, advanceEntry_waitingAt hsel c (by omega) hn,
      iterate_advanceEntry_counting hsel j (n - 1) _ (by omega) (by omega), Nat.sub_sub, Nat.add_comm 1]

/-- As many entries as WAIT asks for end in the run stage. -/
theorem iterate_advanceEntry_resumes (hsel : s.inputs.sel = s.selL) : ∀ (n : Nat) (c : Ctl), n + 1 ≤ 0xFFFE →
    State.advanceEntry^[n + 1] (s.waitingAt (n + 1) c) = s.waitingAt 0 .run
  | 0, c, _ => advanceEntry_waitingAt_one hsel c
  | n + 1, c, hn => by
    rw [Function.iterate_succ_apply, advanceEntry_waitingAt hsel c (by omega) hn]
    exact iterate_advanceEntry_resumes hsel n _ (by omega)

/-- Settles O20: the first n − 1 entries count WAIT down to 1, and the n-th resumes. -/
theorem waitResumesAfterNCalls : Obligations.WaitResumesAfterNCalls := by
  rintro s n hsel rfl hpos hn
  constructor
  · intro j hj hlt
    obtain ⟨i, rfl⟩ := Nat.exists_eq_succ_of_ne_zero hj.ne'
    have hs := iterate_advanceEntry_counting hsel i s.wait.toNat s.ctl hlt hn
    rw [waitingAt_self] at hs
    rw [hs]
    exact ⟨toNat_wait_waitingAt s _ (by omega), (returnFromAdvance_keepsPlace s).ctl, rfl⟩
  · obtain ⟨m, hm⟩ := Nat.exists_eq_succ_of_ne_zero (Nat.ne_of_gt hpos)
    have hs := iterate_advanceEntry_resumes hsel m s.ctl (hm.symm.trans_le hn)
    rwa [← Nat.succ_eq_add_one, ← hm, waitingAt_self] at hs

/-! ### The selection scan (40_interpreter.md R84) -/

section

variable (r : Rom)

/-- The number of 0x78 bytes among the `d` bytes from offset `a` on. -/
def Rom.delimiters (a d : Nat) : Nat := (List.range' a d).countP fun b => r.read b == 0x78

theorem delimiters_succ (a d : Nat) :
    r.delimiters a (d + 1) = r.delimiters (a + 1) d + if r.read a = 0x78 then 1 else 0 := by
  simp [Rom.delimiters, List.range'_succ, List.countP_cons]

theorem delimiters_zero_left (d : Nat) :
    r.delimiters 0 d = (List.range d).countP fun b => r.read b == 0x78 := by
  rw [Rom.delimiters, List.range_eq_range']

variable {r}

theorem delimiters_pos {a d k : Nat} (hk : k < d) (hx : r.read (a + k) = 0x78) : 0 < r.delimiters a d :=
  List.countP_pos_iff.2 ⟨a + k, List.mem_range'_1.2 (by omega), beq_iff_eq.2 hx⟩

/-- One turn of the scan at a byte that is no NUL: it goes on, one delimiter fewer to count after an 0x78. -/
theorem scan_succ {fuel a left : Nat} (hnul : r.read a ≠ 0x00) :
    r.scan (fuel + 1) a (left + 1) = r.scan fuel (a + 1) (left + 1 - if r.read a = 0x78 then 1 else 0) := by
  rw [Rom.scan, if_neg hnul]
  split <;> rfl

/-- Over bytes without a NUL that end with the last delimiter to count, the scan ends just after them. -/
theorem scan_lands : ∀ (d fuel a : Nat), d ≤ fuel → (∀ k < d, r.read (a + k) ≠ 0x00) →
    (d = 0 ∨ r.read (a + (d - 1)) = 0x78) → r.scan fuel a (r.delimiters a d) = a + d
  | 0, _, _, _, _, _ => by simp [Rom.delimiters, Rom.scan]
  | d + 1, 0, _, hfuel, _, _ => by omega
  | d + 1, fuel + 1, a, hfuel, hnul, hlast => by
    have hx : r.read (a + d) = 0x78 := hlast.resolve_left nofun
    obtain ⟨left, hleft⟩ := Nat.exists_eq_succ_of_ne_zero (delimiters_pos d.lt_succ_self hx).ne'
    have hnext : d = 0 ∨ r.read (a + 1 + (d - 1)) = 0x78 := by
      refine or_iff_not_imp_left.2 fun hd => ?_
      rwa [show a + 1 + (d - 1) = a + d by omega]
    have hcount : left + 1 - (if r.read a = 0x78 then 1 else 0) = r.delimiters (a + 1) d := by
      rw [← Nat.succ_eq_add_one, ← hleft, delimiters_succ, Nat.add_sub_cancel]
    have hhead : r.read a ≠ 0x00 := hnul 0 d.succ_pos
    have htail (k : Nat) (hk : k < d) : r.read (a + 1 + k) ≠ 0x00 := by
      rw [Nat.add_right_comm]
      exact hnul (k + 1) (by omega)
    rw [hleft, scan_succ hhead, hcount, scan_lands d fuel (a + 1) (by omega) htail hnext]
    omega

/-- With a NUL before the last delimiter to count, the scan ends at 0. -/
theorem scan_nul : ∀ (d fuel a left : Nat), (∀ k < d, r.read (a + k) ≠ 0x00) → r.read (a + d) = 0x00 →
    r.delimiters a d < left → r.scan fuel a left = 0
  | _, 0, _, _ + 1, _, _, _ => rfl
  | 0, _ + 1, _, _ + 1, _, hz, _ => if_pos hz
  | d + 1, fuel + 1, a, left + 1, hnul, hz, hlt => by
    have hhead : r.read a ≠ 0x00 := hnul 0 d.succ_pos
    rw [scan_succ hhead]
    refine scan_nul d fuel (a + 1) _ (fun k hk => ?_) (by rwa [Nat.add_right_comm]) ?_
    · rw [Nat.add_right_comm]
      exact hnul (k + 1) (by omega)
    · rw [delimiters_succ] at hlt
      omega

end

/-- Settles O17: the scan from offset 0 either lands just after the last delimiter or meets the first NUL before it. -/
theorem selectLandsAtSequenceStart : Obligations.SelectLandsAtSequenceStart := by
  intro s n hl
  have hpc : (s.select n).pc.toNat = s.rom.scan (s.rom.size + 1) 0 n := toNat_sequenceStart hl n
  simp only [← delimiters_zero_left, hpc]
  refine ⟨fun a ha hnul hcount hlast => ?_, fun z hz hnul hlt => ?_, rfl⟩
  · rw [← hcount, scan_lands a _ 0 (Nat.le_succ_of_le ha) (by simpa using hnul) (by simpa using hlast), Nat.zero_add]
  · exact scan_nul z _ 0 n (by simpa using hnul) (by simpa using hz) hlt

/-! ### An advance call returns (40_interpreter.md R93) -/

/-- The instructions that do not continue end the call. -/
theorem ctl_ne_run_of_not_continues {i : Instr} (hi : i.continues = false) (h : exec i s = .next t) : t.ctl ≠ .run := by
  have returned {u : State} : u.returnFromAdvance.ctl ≠ .run := (returnFromAdvance_keepsPlace u).ctl
  cases i with
  | e _ => cases hi
  | s _ => cases hi
  | a => cases hi
  | p _ => cases hi
  | w v =>
    obtain rfl : v = waitHalt := by simpa [Instr.continues] using hi
    cases (exec_w s waitHalt).symm.trans h
    exact returned (u := s)
  | x => cases (exec_x s).symm.trans h; exact returned
  | nul => cases (exec_nul s).symm.trans h; exact returned
  | invalid b => cases (exec_invalid s b).symm.trans h; exact returned

/-- An instruction after which the call goes on stands below PROG_SIZE and moves PC up. -/
theorem pc_lt_of_stays_in_run (hl : s.rom.legalSize) (h : exec s.fetch s = .next t) (hrun : t.ctl = .run) :
    s.pc.toNat < s.rom.size ∧ s.pc.toNat < t.pc.toNat := by
  have hcont : s.fetch.continues = true := by
    by_contra hi
    exact ctl_ne_run_of_not_continues (Bool.eq_false_of_not_eq_true hi) h hrun
  have hn : s.fetch ≠ .nul := fun hn => by simp [hn, Instr.continues] at hcont
  obtain ⟨hpc, -⟩ := exec_of_continues hcont h
  rw [hpc, toNat_fallThrough hl hn]
  exact ⟨not_le.1 (mt (fetch_past_end s) hn), Nat.lt_add_of_pos_right s.fetch.format.length_pos⟩

theorem run_succ (h : step s = .next t) (k : Nat) :
    Host.Core.run Sys2Proof.core (k + 1) s = Host.Core.run Sys2Proof.core k t := by
  have hcore : Sys2Proof.core.step s = .next t := h
  simp only [Host.Core.run, hcore]

/-- An advance call returns after at most one instruction more than there are bytes of the Program left at PC: each
instruction that does not return moves PC up. -/
theorem advanceCall_returns (s : State) (hl : s.rom.legalSize) (hc : s.ctl = .run) :
    ∃ (k : Nat) (t : State), k ≤ s.rom.size - s.pc.toNat + 1
      ∧ Host.Core.run Sys2Proof.core k s = .next t ∧ t.ctl ≠ .run := by
  obtain ⟨t, ht, hrom, -⟩ := exec_sameRomAndLines s s.fetch
  have hstep := (step_run hl hc).trans ht
  by_cases hrun : t.ctl = .run
  · obtain ⟨hlt, hpc⟩ := pc_lt_of_stays_in_run hl ht hrun
    have hless : t.rom.size - t.pc.toNat < s.rom.size - s.pc.toNat := by
      rw [hrom]
      omega
    obtain ⟨k, u, hk, hu, hctl⟩ := advanceCall_returns t (hrom ▸ hl) hrun
    exact ⟨k + 1, u, by omega, (run_succ hstep k).trans hu, hctl⟩
  · exact ⟨1, t, Nat.le_add_left _ _, run_succ hstep 0, hrun⟩
termination_by s.rom.size - s.pc.toNat

/-- Settles O21: no more than PROG_SIZE bytes of the Program are left at any PC. -/
theorem advanceCallTerminates : Obligations.AdvanceCallTerminates := by
  intro s hl hc
  obtain ⟨k, t, hk, hrun⟩ := advanceCall_returns s hl hc
  exact ⟨k, t, by omega, hrun⟩

end Sys2Proof.Machine
end

section
/-! SUPPORT. The Grid by row and column, the cell each cell is copied from in a pan, and a Grid that holds a single cell; and
on them the settled statements about the Grid instructions of 41_grid_ops.md. -/

namespace Sys2Proof.Machine

/-! ### The instructions `e`, `s`, `a` (41_grid_ops.md R100-R102) -/

/-- Settles O8. -/
theorem setEffectResult : Obligations.SetEffectResult :=
  ⟨fun imm8 s => exec_e s imm8, fun _ => fetch_e⟩

/-- Settles O9: the Grid of the next state is one write at idx8. -/
theorem setCellResult : Obligations.SetCellResult := by
  refine ⟨fun idx8 s => ⟨_, exec_s s idx8, ?_, fun a ha => ?_, rfl⟩, fun _ => fetch_s⟩
  · exact (read_write s.grid idx8.toNat s.eff idx8.toNat).trans (if_pos rfl)
  · exact (read_write s.grid idx8.toNat s.eff a).trans (if_neg ha)

/-- Settles O10: the Grid of the next state is tabulated from EFF. -/
theorem setAllResult : Obligations.SetAllResult :=
  ⟨fun s => ⟨_, exec_a s, read_gridOf fun _ => s.eff, rfl⟩, fun _ => fetch_a⟩

/-! ### Cells by row and column (10_state.md R21) -/

/-- The index of the cell at a row and a column. -/
def cellIndex (p : Nat × Nat) : Nat := 16 * p.1 + p.2

theorem exists_byte_of_cell {r c : Nat} (hr : r < 16) (hc : c < 16) : ∃ i : Byte, i.toNat = cellIndex (r, c) :=
  ⟨.ofNat 8 (cellIndex (r, c)), Nat.mod_eq_of_lt (by simp only [cellIndex]; omega)⟩

theorem exists_cell_of_byte (i : Byte) : ∃ r c : Nat, r < 16 ∧ c < 16 ∧ i.toNat = cellIndex (r, c) :=
  ⟨i.toNat / 16, i.toNat % 16, by omega, by omega, (Nat.div_add_mod i.toNat 16).symm⟩

/-! ### One direction of a pan (41_grid_ops.md R104-R107) -/

/-- The row (or column) copied to row `x` by a shift by `k` toward row 15. -/
def sourceBelow (k x : Nat) : Nat := if k ≤ x then x - k else x

/-- The row (or column) copied to row `x` by a shift by `k` toward row 0. -/
def sourceAbove (k x : Nat) : Nat := if x + k ≤ 15 then x + k else x

theorem sourceBelow_zero (x : Nat) : sourceBelow 0 x = x := if_pos (Nat.zero_le x)

theorem sourceAbove_zero (x : Nat) : sourceAbove 0 x = x := ite_self x

theorem sourceBelow_lt {k x : Nat} (hx : x < 16) : sourceBelow k x < 16 := by
  rw [sourceBelow]
  split <;> omega

theorem sourceAbove_lt {k x : Nat} (hx : x < 16) : sourceAbove k x < 16 := by
  rw [sourceAbove]
  split <;> omega

/-- A row with `k` rows before it is copied `k` rows on and overwritten itself. -/
theorem sourceBelow_eq_iff {k x y : Nat} (hx : k ≤ x) : sourceBelow k y = x ↔ y = x + k := by
  rw [sourceBelow]
  split <;> omega

/-- A row with `k` rows before and after it is copied `k` rows back and overwritten itself. -/
theorem sourceAbove_eq_iff {k x y : Nat} (hx : k ≤ x) (hx' : x + k ≤ 15) : sourceAbove k y = x ↔ y = x - k := by
  rw [sourceAbove]
  split <;> omega

/-- The row and column whose old byte the cell at row `r`, column `c` holds after a shift by `k`. -/
def panSource (k r c : Nat) : Dir → Nat × Nat
  | .down => (sourceBelow k r, c)
  | .right => (r, sourceBelow k c)
  | .up => (sourceAbove k r, c)
  | .left => (r, sourceAbove k c)

theorem panSource_zero (r c : Nat) (d : Dir) : panSource 0 r c d = (r, c) := by
  cases d <;> simp only [panSource, sourceBelow_zero, sourceAbove_zero]

theorem panSource_lt {k r c : Nat} (d : Dir) (hr : r < 16) (hc : c < 16) :
    (panSource k r c d).1 < 16 ∧ (panSource k r c d).2 < 16 := by
  cases d with
  | down => exact ⟨sourceBelow_lt hr, hc⟩
  | right => exact ⟨hr, sourceBelow_lt hc⟩
  | up => exact ⟨sourceAbove_lt hr, hc⟩
  | left => exact ⟨hr, sourceAbove_lt hc⟩

/-- The four shifts, whose definitions test the cell's index, by row and column. -/
theorem read_shift (d : Dir) (g : Memory) (k : Nat) {r c : Nat} (hr : r < 16) (hc : c < 16) :
    (shift d g k).read (cellIndex (r, c)) = g.read (cellIndex (panSource k r c d)) := by
  obtain ⟨i, hi⟩ := exists_byte_of_cell hr hc
  rw [← hi]
  cases d with
  | down =>
    refine (read_shiftDown g k i).trans ?_
    grind [cellIndex, panSource, sourceBelow]
  | right =>
    refine (read_shiftRight g k i).trans ?_
    grind [cellIndex, panSource, sourceBelow]
  | up =>
    refine (read_shiftUp g k i).trans ?_
    grind [cellIndex, panSource, sourceAbove]
  | left =>
    refine (read_shiftLeft g k i).trans ?_
    grind [cellIndex, panSource, sourceAbove]

theorem read_shift_zero (d : Dir) (g : Memory) (i : Byte) : (shift d g 0).read i.toNat = g.read i.toNat := by
  obtain ⟨r, c, hr, hc, hi⟩ := exists_cell_of_byte i
  rw [hi, read_shift d g 0 hr hc, panSource_zero]

/-- The pan byte with every direction bit but that of `d` cleared. -/
def panOnly (v : Pan) : Dir → Pan
  | .down => { v with right := false, up := false, left := false }
  | .right => { v with down := false, up := false, left := false }
  | .up => { v with down := false, right := false, left := false }
  | .left => { v with down := false, right := false, up := false }

theorem pan_panOnly (v : Pan) (g : Memory) (d : Dir) : pan (panOnly v d) g = panDir v g d := by
  cases d <;> rfl

theorem exec_panOnly (v : Pan) (s : State) (d : Dir) :
    exec (.p (panOnly v d)) s = .next { s with grid := panDir v s.grid d, pc := s.pc + 3 } := by
  rw [exec_p, pan_panOnly]

theorem panDir_of_set {v : Pan} {d : Dir} (h : panHas v d = true) (g : Memory) : panDir v g d = shift d g (panAmount v) :=
  if_pos h

theorem panDir_of_clear {v : Pan} {d : Dir} (h : panHas v d = false) (g : Memory) : panDir v g d = g :=
  if_neg (by simp [h])

/-- The pan byte with all four direction bits set. -/
def panAll (k : Nibble) : Pan := { down := true, right := true, up := true, left := true, amount := k }

theorem panDir_panAll (k : Nibble) (g : Memory) (d : Dir) : panDir (panAll k) g d = shift d g k.toNat := by
  cases d <;> rfl

theorem read_panDir_of_idle {v : Pan} {d : Dir} (h : panAmount v = 0 ∨ panHas v d = false) (g : Memory) (i : Byte) :
    (panDir v g d).read i.toNat = g.read i.toNat := by
  by_cases hd : panHas v d = true
  · have hk : panAmount v = 0 := h.resolve_right (by simp [hd])
    rw [panDir_of_set hd, hk, read_shift_zero]
  · rw [panDir_of_clear (by simpa using hd)]

/-- Settles O11: the next Grid is the one shift, read at the cell's source. -/
theorem panOneDirection : Obligations.PanOneDirection := by
  intro k s
  have hk : k.toNat < 16 := k.isLt
  refine ⟨⟨_, exec_panOnly (panAll k) s .left, fun r c hr hc => (read_shift .left s.grid k.toNat hr hc).trans ?_, rfl⟩,
    ⟨_, exec_panOnly (panAll k) s .right, fun r c hr hc => (read_shift .right s.grid k.toNat hr hc).trans ?_, rfl⟩,
    ⟨_, exec_panOnly (panAll k) s .up, fun r c hr hc => (read_shift .up s.grid k.toNat hr hc).trans ?_, rfl⟩,
    ⟨_, exec_panOnly (panAll k) s .down, fun r c hr hc => (read_shift .down s.grid k.toNat hr hc).trans ?_, rfl⟩⟩
  · grind [cellIndex, panSource, sourceAbove]
  · grind [cellIndex, panSource, sourceBelow]
  · grind [cellIndex, panSource, sourceAbove]
  · grind [cellIndex, panSource, sourceBelow]

/-- Settles O12: `pan` is the four turns in PAN_ORDER, and each turn is the pan whose other direction bits are clear. -/
theorem panAppliesDirectionsInOrder : Obligations.PanAppliesDirectionsInOrder := by
  refine ⟨fun v s => ?_, fun _ => fetch_p⟩
  exact ⟨_, _, _, _, _, exec_p s v, exec_panOnly v _ .down, exec_panOnly v _ .right, exec_panOnly v _ .up,
    exec_panOnly v _ .left, pan_eq v s.grid,
    fun h => panDir_of_clear (d := .down) h _, fun h => panDir_of_clear (d := .right) h _,
    fun h => panDir_of_clear (d := .up) h _, fun h => panDir_of_clear (d := .left) h _, rfl⟩

/-- Settles O13: each of the four turns leaves every cell. -/
theorem panOfNothingLeavesGrid : Obligations.PanOfNothingLeavesGrid := by
  intro v s h
  have hidle : ∀ d, panAmount v = 0 ∨ panHas v d = false := by
    intro d
    rcases h with hk | ⟨hdown, hright, hup, hleft⟩
    · exact .inl (by simp [panAmount, hk])
    · exact .inr (by cases d <;> assumption)
  refine ⟨_, exec_p s v, fun i => ?_⟩
  show (pan v s.grid).read i.toNat = s.grid.read i.toNat
  simp only [pan_eq, read_panDir_of_idle (hidle _)]

/-! ### A single cell under a pan (41_grid_ops.md R108 (d)) -/

/-- Every cell but the one at row and column `p` is 0x00; that one holds `v`. -/
def HoldsOnly (p : Nat × Nat) (v : Byte) (g : Memory) : Prop :=
  ∀ r c : Nat, r < 16 → c < 16 → g.read (cellIndex (r, c)) = if (r, c) = p then v else 0x00

theorem HoldsOnly.read_eq {g g' : Memory} {p : Nat × Nat} {v : Byte} (h : HoldsOnly p v g) (h' : HoldsOnly p v g')
    (i : Byte) : g.read i.toNat = g'.read i.toNat := by
  obtain ⟨r, c, hr, hc, hi⟩ := exists_cell_of_byte i
  rw [hi, h r c hr hc, h' r c hr hc]

/-- Where a shift by `k` copies the cell at row `r`, column `c`. -/
def panTarget (k r c : Nat) : Dir → Nat × Nat
  | .down => (r + k, c)
  | .right => (r, c + k)
  | .up => (r - k, c)
  | .left => (r, c - k)

/-- The cell is `k` cells or more from both ends of the line `d` moves it along, so that a shift by `k` copies it inside the
Grid and overwrites its old place. -/
def PanRoom (k r c : Nat) : Dir → Prop
  | .down | .up => k ≤ r ∧ r + k ≤ 15
  | .right | .left => k ≤ c ∧ c + k ≤ 15

theorem panSource_eq_iff {k r c : Nat} {d : Dir} (hroom : PanRoom k r c d) (i j : Nat) :
    panSource k i j d = (r, c) ↔ (i, j) = panTarget k r c d := by
  cases d with
  | down => simp only [panSource, panTarget, Prod.mk.injEq, sourceBelow_eq_iff hroom.1]
  | right => simp only [panSource, panTarget, Prod.mk.injEq, sourceBelow_eq_iff hroom.1]
  | up => simp only [panSource, panTarget, Prod.mk.injEq, sourceAbove_eq_iff hroom.1 hroom.2]
  | left => simp only [panSource, panTarget, Prod.mk.injEq, sourceAbove_eq_iff hroom.1 hroom.2]

/-- A shift moves a single cell to its target: every other cell takes a zero. -/
theorem HoldsOnly.shift {g : Memory} {k r c : Nat} {v : Byte} (h : HoldsOnly (r, c) v g) {d : Dir}
    (hroom : PanRoom k r c d) : HoldsOnly (panTarget k r c d) v (shift d g k) := by
  intro i j hi hj
  obtain ⟨hrow, hcol⟩ := panSource_lt (k := k) d hi hj
  rw [read_shift d g k hi hj, h _ _ hrow hcol, Prod.mk.eta]
  simp only [panSource_eq_iff hroom]

/-- Down and right, then up and left by the same amount. -/
theorem HoldsOnly.pan_panAll {g : Memory} {k : Nibble} {r c : Nat} {v : Byte} (h : HoldsOnly (r, c) v g)
    (hr : k.toNat ≤ r) (hr' : r + 2 * k.toNat ≤ 15) (hc : k.toNat ≤ c) (hc' : c + 2 * k.toNat ≤ 15) :
    HoldsOnly (r, c) v (pan (panAll k) g) := by
  have hdown := h.shift (d := .down) (k := k.toNat) ⟨by omega, by omega⟩
  have hright := hdown.shift (d := .right) (k := k.toNat) ⟨by omega, by omega⟩
  have hup := hright.shift (d := .up) (k := k.toNat) ⟨by omega, by omega⟩
  have hleft := hup.shift (d := .left) (k := k.toNat) ⟨by omega, by omega⟩
  simpa [pan_eq, panDir_panAll, panTarget] using hleft

/-- Settles O14: the Grid holds the same single cell before and after. -/
theorem panAllFourReturnsSingleCell : Obligations.PanAllFourReturnsSingleCell := by
  intro k r c s hr hr' hc hc' hzero
  have hsingle : HoldsOnly (r, c) (s.grid.read (cellIndex (r, c))) s.grid := by
    intro i j hi hj
    split
    next heq => rw [heq]
    next hne =>
      obtain ⟨b, hb⟩ := exists_byte_of_cell hi hj
      rw [← hb]
      refine hzero b fun hrc => hne ?_
      simp only [cellIndex] at hb
      exact Prod.ext (by simp only; omega) (by simp only; omega)
  exact ⟨_, exec_p s (panAll k), (hsingle.pan_panAll hr hr' hc hc').read_eq hsingle⟩

end Sys2Proof.Machine
end

section
/-! SUPPORT. The fields of a cell's byte as masks and on naturals, the byte's fade step as one equation per direction, the
ramp of a one-shot cell and the cycle of a bouncing one; and on them the settled statements about the fade state machine
of 42_fade.md. -/

namespace Sys2Proof.Machine

/-! ### The fields of a cell's byte (10_state.md R23) -/

section

variable (c : Byte)

theorem cellAuto_iff_mask : cellAuto c = true ↔ c &&& 0x10 ≠ 0 := getLsbD_iff_and_mask c 4 (by decide)

theorem cellDir_iff_mask : cellDir c = true ↔ c &&& 0x20 ≠ 0 := getLsbD_iff_and_mask c 5 (by decide)

theorem cellBounce_iff_mask : cellBounce c = true ↔ c &&& 0x40 ≠ 0 := getLsbD_iff_and_mask c 6 (by decide)

/-- A bit of a byte on naturals. -/
theorem getLsbD_iff_div_mod (i : Nat) : c.getLsbD i = true ↔ c.toNat / 2 ^ i % 2 = 1 := by
  rw [BitVec.getLsbD, Nat.testBit_eq_decide_div_mod_eq, decide_eq_true_iff]

theorem cellAuto_iff : cellAuto c = true ↔ c.toNat / 16 % 2 = 1 := getLsbD_iff_div_mod c 4

theorem cellDir_iff : cellDir c = true ↔ c.toNat / 32 % 2 = 1 := getLsbD_iff_div_mod c 5

theorem cellBounce_iff : cellBounce c = true ↔ c.toNat / 64 % 2 = 1 := getLsbD_iff_div_mod c 6

theorem toNat_cellLevel : (cellLevel c).toNat = c.toNat % 16 := by
  simp [cellLevel]

end

/-! ### The writes of the fields as sums and differences -/

section

variable {c : Byte}

/-- A byte is the bits under a mask plus the others: no carry between them. -/
theorem and_mask_add_and_not_mask (c m : Byte) : (c &&& m) + (c &&& ~~~m) = c := by
  rw [BitVec.add_eq_or_of_and_eq_zero]
  all_goals
    ext i hi
    cases h : m[i] <;> simp [h]

/-- Clearing set bits subtracts their mask. -/
theorem and_not_mask_eq_sub {m : Byte} (h : c &&& m = m) : c &&& ~~~m = c - m := by
  have hsum := and_mask_add_and_not_mask c m
  rw [h, BitVec.add_comm] at hsum
  exact BitVec.eq_sub_iff_add_eq.2 hsum

theorem cellStopped_eq (h : cellAuto c = true) : cellStopped c = c - 0x10 :=
  and_not_mask_eq_sub ((BitVec.and_twoPow c 4).trans (if_pos h))

theorem cellWithDir_false (h : cellDir c = true) : cellWithDir c false = c - 0x20 :=
  and_not_mask_eq_sub ((BitVec.and_twoPow c 5).trans (if_pos h))

theorem cellWithDir_true (h : ¬cellDir c = true) : cellWithDir c true = c + 0x20 :=
  (BitVec.add_eq_or_of_and_eq_zero c 0x20 ((BitVec.and_twoPow c 5).trans (if_neg h))).symm

theorem toNat_and_upperHalf (c : Byte) : (c &&& 0xF0).toNat = 2 ^ 4 * (c.toNat / 16) := by
  decide +revert

theorem toNat_cellWithLevel (c : Byte) (l : Nibble) : (cellWithLevel c l).toNat = 16 * (c.toNat / 16) + l.toNat := by
  rw [cellWithLevel, BitVec.toNat_or, toNat_and_upperHalf, BitVec.toNat_setWidth_of_le (by decide),
    ← Nat.two_pow_add_eq_or_of_lt l.isLt]

theorem cellWithLevel_succ (h : cellLevel c < 15) : cellWithLevel c (cellLevel c + 1) = c + 1 := by
  have hwith := toNat_cellWithLevel c (cellLevel c + 1)
  have hlevel := toNat_cellLevel c
  bv_omega

theorem cellWithLevel_pred (h : 0 < cellLevel c) : cellWithLevel c (cellLevel c - 1) = c - 1 := by
  have hwith := toNat_cellWithLevel c (cellLevel c - 1)
  have hlevel := toNat_cellLevel c
  bv_omega

end

/-! ### What a fade step makes of one byte (42_fade.md R121-R124) -/

/-- What a fade step makes of a cell: each cell's new byte is a function of its old one (42_fade.md R126). -/
def fadeByte (c : Byte) : Byte := if cellAuto c then fadeCell c else c

theorem read_fadeGrid_eq (g : Memory) (i : Byte) : (fadeGrid g).read i.toNat = fadeByte (g.read i.toNat) :=
  read_fadeGrid g i

section

variable {c : Byte}

theorem fadeByte_of_plain (hauto : ¬cellAuto c = true) : fadeByte c = c := if_neg hauto

/-- An increasing cell steps up, turns round or stops. -/
theorem fadeByte_of_increasing (hauto : cellAuto c = true) (hdir : cellDir c = true) :
    fadeByte c = if c.toNat % 16 < 15 then c + 1 else if cellBounce c then c - 0x20 else c - 0x10 := by
  have hlevel : cellLevel c < 15 ↔ c.toNat % 16 < 15 := by
    rw [← toNat_cellLevel]
    exact Iff.rfl
  simp only [fadeByte, if_pos hauto, fadeCell, if_pos hdir, fadeIncreasing, hlevel, cellWithDir_false hdir,
    cellStopped_eq hauto]
  split
  next hlt => rw [cellWithLevel_succ (hlevel.2 hlt)]
  next => rfl

/-- A decreasing cell steps down, turns round or stops. -/
theorem fadeByte_of_decreasing (hauto : cellAuto c = true) (hdir : ¬cellDir c = true) :
    fadeByte c = if 0 < c.toNat % 16 then c - 1 else if cellBounce c then c + 0x20 else c - 0x10 := by
  have hlevel : 0 < cellLevel c ↔ 0 < c.toNat % 16 := by
    rw [← toNat_cellLevel]
    exact Iff.rfl
  simp only [fadeByte, if_pos hauto, fadeCell, if_neg hdir, fadeDecreasing, hlevel, cellWithDir_true hdir,
    cellStopped_eq hauto]
  split
  next hpos => rw [cellWithLevel_pred (hlevel.2 hpos)]
  next => rfl

end

/-! ### The fade step as a step of the machine -/

theorem cell_fadeStep_environment (s : State) (i : Byte) : s.fadeStep.environment.cell i = fadeByte (s.cell i) :=
  read_fadeGrid_eq s.grid i

/-- Settles O23: the cell's new byte is `fadeByte` of the old one, read at the clause's fields. -/
theorem fadeStepPerCell : Obligations.FadeStepPerCell := by
  intro s hl hc
  refine ⟨_, step_fade hl hc, rfl, fun i => ?_⟩
  simp only [cell_fadeStep_environment, ← cellAuto_iff_mask, ← cellDir_iff_mask, ← cellBounce_iff_mask]
  refine ⟨fadeByte_of_plain, fun ha hd hlt => ?_, fun ha hd htop hb => ?_, fun ha hd htop hb => ?_,
    fun ha hd hpos => ?_, fun ha hd hzero hb => ?_, fun ha hd hzero hb => ?_⟩
  · rw [fadeByte_of_increasing ha hd, if_pos hlt]
  · rw [fadeByte_of_increasing ha hd, if_neg (by omega), if_pos hb]
  · rw [fadeByte_of_increasing ha hd, if_neg (by omega), if_neg hb]
  · rw [fadeByte_of_decreasing ha hd, if_pos hpos]
  · rw [fadeByte_of_decreasing ha hd, if_neg (by omega), if_pos hb]
  · rw [fadeByte_of_decreasing ha hd, if_neg (by omega), if_neg hb]

/-- Two Grids in canonical form that agree on every cell are equal. -/
theorem grid_ext {g g' : Memory} (hwf : g.wf) (hb : g.below gridCells) (hwf' : g'.wf) (hb' : g'.below gridCells)
    (h : ∀ i : Byte, g.read i.toNat = g'.read i.toNat) : g = g' := by
  refine wf_ext g g' hwf hwf' fun a => ?_
  by_cases ha : a < gridCells
  · simpa [Nat.mod_eq_of_lt ha] using h (BitVec.ofNat 8 a)
  · rw [read_of_not_listed g a fun c hc he => ha (he ▸ hb c hc),
      read_of_not_listed g' a fun c hc he => ha (he ▸ hb' c hc)]

/-- Settles O24: the cell's new byte is `fadeByte` of the old one, which keeps a byte that is not autonomous. -/
theorem fadeIsCellwise : Obligations.FadeIsCellwise := by
  refine ⟨fun s s' t t' hc hc' ht ht' i hcell => ?_, fun s hinv hc hplain => ?_⟩
  · cases (step_fade (legalSize_of_step ht) hc).symm.trans ht
    cases (step_fade (legalSize_of_step ht') hc').symm.trans ht'
    rw [cell_fadeStep_environment, cell_fadeStep_environment, hcell]
  · refine ⟨_, step_fade hinv.romSize hc, ?_⟩
    obtain ⟨hwf, hb⟩ := fadeGrid_keeps s.grid
    refine grid_ext hwf hb hinv.gridWf hinv.gridBound fun i => ?_
    exact (cell_fadeStep_environment s i).trans (fadeByte_of_plain fun ha => (cellAuto_iff_mask _).1 ha (hplain i))

/-- The fade of a cell over several fade steps is that of its byte alone. -/
theorem read_iterate_fadeGrid (n : Nat) (g : Memory) (i : Byte) :
    (fadeGrid^[n] g).read i.toNat = fadeByte^[n] (g.read i.toNat) :=
  Function.Semiconj.iterate_right (f := fun g : Memory => g.read i.toNat) (fun g => read_fadeGrid_eq g i) n g

/-! ### An autonomous cell over several fade steps, on naturals -/

section

variable {c : Byte}

/-- The fade step of an autonomous byte on naturals: no case wraps. -/
theorem toNat_fadeByte_of_auto (hauto : c.toNat / 16 % 2 = 1) :
    (fadeByte c).toNat =
      if c.toNat / 32 % 2 = 1 then
        if c.toNat % 16 < 15 then c.toNat + 1 else if c.toNat / 64 % 2 = 1 then c.toNat - 32 else c.toNat - 16
      else
        if 0 < c.toNat % 16 then c.toNat - 1 else if c.toNat / 64 % 2 = 1 then c.toNat + 32 else c.toNat - 16 := by
  have ha : cellAuto c = true := (cellAuto_iff c).2 hauto
  by_cases hd : cellDir c = true
  · rw [fadeByte_of_increasing ha hd, if_pos ((cellDir_iff c).1 hd)]
    simp only [cellDir_iff, cellBounce_iff] at hd ⊢
    split_ifs <;> bv_omega
  · rw [fadeByte_of_decreasing ha hd, if_neg (mt (cellDir_iff c).2 hd)]
    simp only [cellDir_iff, cellBounce_iff] at hd ⊢
    split_ifs <;> bv_omega

/-! ### The ramp of a one-shot cell (42_fade.md R125) -/

/-- The low seven bits of an autonomous cell without BOUNCE, `k` steps from its end level. -/
def rampBits (increasing : Bool) (k : Nat) : Nat := if increasing then 0x30 + (15 - k) else 0x10 + k

/-- The low seven bits of that cell when it has stopped: AUTO is clear. -/
def stoppedBits (increasing : Bool) : Nat := if increasing then 0x2F else 0x00

variable {increasing : Bool} {k : Nat}

theorem exists_rampBits (hauto : c.toNat / 16 % 2 = 1) (hbounce : c.toNat / 64 % 2 = 0) :
    ∃ k < 16, c.toNat % 128 = rampBits (cellDir c) k := by
  by_cases hdir : cellDir c = true
  · refine ⟨15 - c.toNat % 16, by omega, ?_⟩
    rw [rampBits, if_pos hdir]
    have hnat := (cellDir_iff c).1 hdir
    omega
  · refine ⟨c.toNat % 16, by omega, ?_⟩
    rw [rampBits, if_neg hdir]
    have hnat := mt (cellDir_iff c).2 hdir
    omega

theorem auto_of_rampBits (hk : k < 16) (h : c.toNat % 128 = rampBits increasing k) : c.toNat / 16 % 2 = 1 := by
  rw [rampBits] at h
  split at h <;> omega

theorem fadeByte_ramps (hk : k + 1 < 16) (h : c.toNat % 128 = rampBits increasing (k + 1)) :
    (fadeByte c).toNat % 128 = rampBits increasing k := by
  rw [toNat_fadeByte_of_auto (auto_of_rampBits hk h)]
  simp only [rampBits] at h ⊢
  split_ifs at h ⊢ <;> omega

theorem fadeByte_stops (h : c.toNat % 128 = rampBits increasing 0) :
    (fadeByte c).toNat % 128 = stoppedBits increasing := by
  rw [toNat_fadeByte_of_auto (auto_of_rampBits (by omega) h)]
  simp only [rampBits, stoppedBits] at h ⊢
  split_ifs at h ⊢ <;> omega

theorem not_cellAuto_of_stoppedBits (h : c.toNat % 128 = stoppedBits increasing) : ¬cellAuto c = true := by
  rw [cellAuto_iff]
  rw [stoppedBits] at h
  split at h <;> omega

/-- A cell that is fewer than `n` steps from its end level has stopped there after `n` fade steps. -/
theorem iterate_fadeByte_stops {n : Nat} (hk : k < n) (hk' : k < 16) (h : c.toNat % 128 = rampBits increasing k) :
    (fadeByte^[n] c).toNat % 128 = stoppedBits increasing := by
  induction n generalizing k c with
  | zero => omega
  | succ n ih =>
    rw [Function.iterate_succ_apply]
    cases k with
    | zero =>
      have hstop := fadeByte_stops h
      rwa [Function.iterate_fixed (fadeByte_of_plain (not_cellAuto_of_stoppedBits hstop))]
    | succ k => exact ih (by omega) (by omega) (fadeByte_ramps hk' h)

/-! ### The cycle of a bouncing cell (42_fade.md R125) -/

/-- The low seven bits of an autonomous cell with BOUNCE, `n` steps after it was increasing at level 0: 16 levels up, 16
down. -/
def cycleBits (n : Nat) : Nat := if n % 32 < 16 then 0x70 + n % 32 else 0x50 + (31 - n % 32)

/-- A byte at position `n` of the cycle; the fade never touches its bit 7. -/
def OnCycle (bit7 n : Nat) (c : Byte) : Prop := c.toNat = 128 * bit7 + cycleBits n

variable {bit7 n : Nat}

theorem exists_onCycle (hauto : c.toNat / 16 % 2 = 1) (hbounce : c.toNat / 64 % 2 = 1) :
    ∃ bit7 n, OnCycle bit7 n c := by
  by_cases hdir : c.toNat / 32 % 2 = 1
  · refine ⟨c.toNat / 128, c.toNat % 16, ?_⟩
    rw [OnCycle, cycleBits, if_pos (by omega)]
    omega
  · refine ⟨c.toNat / 128, 31 - c.toNat % 16, ?_⟩
    rw [OnCycle, cycleBits, if_neg (by omega)]
    omega

theorem OnCycle.fade (h : OnCycle bit7 n c) : OnCycle bit7 (n + 1) (fadeByte c) := by
  simp only [OnCycle, cycleBits] at h ⊢
  have hauto : c.toNat / 16 % 2 = 1 := by split at h <;> omega
  rw [toNat_fadeByte_of_auto hauto]
  split_ifs at h ⊢ <;> omega

theorem OnCycle.iterate (h : OnCycle bit7 n c) (k : Nat) : OnCycle bit7 (n + k) (fadeByte^[k] c) := by
  induction k with
  | zero => exact h
  | succ k ih =>
    rw [Function.iterate_succ_apply']
    exact ih.fade

theorem OnCycle.periodic {c' : Byte} (h : OnCycle bit7 n c) (h' : OnCycle bit7 (n + 32) c') : c' = c := by
  rw [OnCycle, cycleBits, Nat.add_mod_right, ← cycleBits] at h'
  exact BitVec.eq_of_toNat_eq (h'.trans h.symm)

end

/-- Settles O25: a bouncing byte is somewhere on the 32-step cycle, a one-shot byte somewhere on its ramp. -/
theorem fadeCycleAndStop : Obligations.FadeCycleAndStop := by
  intro g i hauto
  simp only [read_iterate_fadeGrid]
  generalize g.read i.toNat = c at *
  have hauto' := (cellAuto_iff c).1 ((cellAuto_iff_mask c).2 hauto)
  refine ⟨fun hbounce => ?cycle, fun hbounce => ?stop⟩
  case cycle =>
    obtain ⟨bit7, n, hc⟩ := exists_onCycle hauto' ((cellBounce_iff c).1 ((cellBounce_iff_mask c).2 hbounce))
    exact hc.periodic (hc.iterate 32)
  case stop =>
    have hone : ¬cellBounce c = true := fun hb => (cellBounce_iff_mask c).1 hb hbounce
    obtain ⟨k, hk, hc⟩ := exists_rampBits hauto' (by rw [cellBounce_iff] at hone; omega)
    have hstop := iterate_fadeByte_stops hk hk hc
    refine ⟨not_not.1 (mt (cellAuto_iff_mask _).2 (not_cellAuto_of_stoppedBits hstop)), ?_⟩
    simp only [← cellDir_iff_mask]
    rw [stoppedBits] at hstop
    split_ifs at hstop ⊢ <;> omega

end Sys2Proof.Machine
end

section
/-! SUPPORT. The three scans of `automaton_update()` on naturals, cell by cell, and the draws of a spark vector; and on them
the settled statements about the automaton of 43_automaton.md. -/

namespace Sys2Proof.Machine

/-! ### The gate, the throttle and the push (43_automaton.md R140) -/

section

variable {s : State}

theorem waitPhase_of_target (h : s.inputs.phase = s.params.phaseTarget) : s.waitPhase = { s with ctl := .update } :=
  if_pos h

theorem autoWait_succ_of_transition (h : s.inputs.tick ≠ s.lastTick) (n : Nat) :
    s.autoWait (n + 1) = { s with lastTick := s.inputs.tick, ctl := .holdAuto n } :=
  if_neg h

end

/-- Settles O33: the step at each position of an automaton step but the update. -/
theorem automatonGateAndThrottle : Obligations.AutomatonGateAndThrottle := by
  intro s hl
  refine ⟨fun hc hphase => ?gate, fun n hc htick => ?throttle, fun hc => ?push⟩
  case gate => rw [step_holdPhase hl hc, waitPhase_of_target hphase]
  case throttle => rw [step_holdAuto hl hc, autoWait_succ_of_transition htick]
  case push => rw [step_holdAuto hl hc, autoWait_zero, pushStep_eq]

/-! ### The draws (43_automaton.md R144) -/

/-- A column consumes its gate draw and, when that fires, the discarded draws and the level's. -/
theorem drawColumn_next (nDiscard k : Nat) :
    (drawColumn nDiscard k).2 = k + 1 + (1 + nDiscard) * if (drawColumn nDiscard k).1.isSome then 1 else 0 := by
  by_cases hgate : Config.gate (Config.draw k) = true
  · simp only [drawColumn, if_pos hgate, Option.isSome_some, if_true]
    omega
  · simp only [drawColumn, if_neg hgate, Option.isSome_none, Bool.false_eq_true, if_false, Nat.mul_zero, Nat.add_zero]

theorem drawSparks_next (nDiscard : Nat) : ∀ cols k : Nat,
    (drawSparks nDiscard cols k).2 = k + cols + (1 + nDiscard) * (drawSparks nDiscard cols k).1.countP Option.isSome
  | 0, _ => rfl
  | cols + 1, k => by
    have hcolumn := drawColumn_next nDiscard k
    have hrest := drawSparks_next nDiscard cols (drawColumn nDiscard k).2
    simp only [drawSparks, List.countP_cons, Nat.mul_add]
    omega

/-- Settles O28: the count for any number of columns, at 16. -/
theorem sparkDrawsConsumed : Obligations.SparkDrawsConsumed :=
  fun nDiscard k => ⟨drawSparks_length nDiscard 16 k, drawSparks_next nDiscard 16 k⟩

/-! ### The update cell by cell, on naturals (43_automaton.md R141, R142, R144)

The natural subtraction stops at 0 as the decrements of the update do, and a zero above adds nothing to a maximum, so that
the tests for zero of the loops leave no case of their own. -/

/-- What falls into a cell: the value of the cell above it, and nothing into the top row. -/
def inflow (g : Memory) (a : Nat) : Nat := if 16 ≤ a then (g.read (a - 16)).toNat else 0

theorem inflow_top (g : Memory) {c : Nat} (hc : c < 16) : inflow g c = 0 := if_neg (Nat.not_le.2 hc)

theorem inflow_succ_row (g : Memory) (r c : Nat) : inflow g (16 * (r + 1) + c) = (g.read (16 * r + c)).toNat := by
  rw [inflow, if_pos (by omega), show 16 * (r + 1) + c - 16 = 16 * r + c by omega]

theorem toNat_byteMax (v w : Byte) : (byteMax v w).toNat = max v.toNat w.toNat := by
  rw [byteMax]
  split <;> bv_omega

/-- The decrement of a scanned cell. -/
theorem toNat_pred_unless_zero (v : Byte) : (if v = 0 then v else v - 1).toNat = v.toNat - 1 := by
  split <;> bv_omega

/-- The cell `v` below a scanned cell `w`. -/
theorem toNat_byteMax_unless_zero (v w : Byte) : (if w = 0 then v else byteMax v w).toNat = max v.toNat w.toNat := by
  split
  · bv_omega
  · exact toNat_byteMax v w

theorem toNat_read_decayCell (g : Memory) (i a : Nat) :
    ((decayCell g i).read a).toNat = if a = i then (g.read a).toNat - 1 else (g.read a).toNat := by
  rw [read_decayCell]
  by_cases ha : a = i
  · subst ha
    simpa using toNat_pred_unless_zero (g.read a)
  · simp [ha]

/-- The decay loop over `n` cells from `i` on. -/
theorem toNat_read_foldl_decayCell (a : Nat) : ∀ (n i : Nat) (g : Memory),
    (((List.range' i n).foldl decayCell g).read a).toNat =
      if i ≤ a ∧ a < i + n then (g.read a).toNat - 1 else (g.read a).toNat
  | 0, i, g => by simp
  | n + 1, i, g => by
    rw [List.range'_succ, List.foldl_cons, toNat_read_foldl_decayCell a n, toNat_read_decayCell]
    split_ifs <;> omega

/-- One turn of the fall loop: cell `i` is decremented, and the cell below it takes what falls in, if that is greater. -/
theorem toNat_read_fallCell (g : Memory) (i a : Nat) :
    ((fallCell g i).read a).toNat =
      max (if a = i then (g.read a).toNat - 1 else (g.read a).toNat) (if a = i + 16 then inflow g a else 0) := by
  rw [read_fallCell]
  by_cases hself : a = i
  · subst hself
    simpa using toNat_pred_unless_zero (g.read a)
  · by_cases hbelow : a = i + 16
    · subst hbelow
      simpa [inflow] using toNat_byteMax_unless_zero (g.read (i + 16)) (g.read i)
    · simp [hself, hbelow]

/-- The fall loop from cell n − 1 down: the cell above is scanned after the cell, so what falls in is its old value. -/
theorem toNat_read_fallBelow (a : Nat) : ∀ (n : Nat) (g : Memory),
    ((fallBelow n g).read a).toNat =
      max (if a < n then (g.read a).toNat - 1 else (g.read a).toNat) (if a < n + 16 then inflow g a else 0)
  | 0, g => by
    by_cases ha : a < 16
    · simp [fallBelow, ha, inflow_top g ha]
    · simp [fallBelow, ha]
  | n + 1, g => by
    rw [fallBelow, toNat_read_fallBelow a n]
    simp only [inflow, toNat_read_fallCell]
    split_ifs <;> omega

/-- Decay and fall together: the rows above the bottom are decremented by the fall, the bottom row by the decay. -/
theorem toNat_read_fall_decayBottom (g : Memory) {a : Nat} (ha : a < 256) :
    ((fall (decayBottom g)).read a).toNat = max ((g.read a).toNat - 1) (inflow g a) := by
  rw [fall, toNat_read_fallBelow]
  simp only [inflow, decayBottom, toNat_read_foldl_decayCell]
  split_ifs <;> omega

theorem read_injectSparks_before : ∀ (sparks : List (Option Nibble)) (c : Nat) (g : Memory) {a : Nat}, a < c →
    (injectSparks c sparks g).read a = g.read a
  | [], _, _, _, _ => rfl
  | none :: sparks, c, g, _, ha => read_injectSparks_before sparks (c + 1) g (by omega)
  | some l :: sparks, c, g, _, ha => by
    rw [injectSparks, read_injectSparks_before sparks (c + 1) _ (by omega), read_write, if_neg (by omega)]

/-- The k-th entry of the vector, if it is a spark, overwrites the k-th cell from `c` on. -/
theorem read_injectSparks : ∀ (sparks : List (Option Nibble)) (c k : Nat) (g : Memory),
    (injectSparks c sparks g).read (c + k) = sparks[k]?.join.elim (g.read (c + k)) (·.setWidth 8)
  | [], _, _, _ => rfl
  | none :: sparks, c, 0, g => read_injectSparks_before sparks (c + 1) g (by omega)
  | some l :: sparks, c, 0, g => by
    rw [injectSparks, read_injectSparks_before sparks (c + 1) _ (by omega), Nat.add_zero, read_write, if_pos rfl]
    rfl
  | none :: sparks, c, k + 1, g => by
    rw [injectSparks, show c + (k + 1) = c + 1 + k by omega, read_injectSparks sparks (c + 1) k]
    rfl
  | some l :: sparks, c, k + 1, g => by
    rw [injectSparks, show c + (k + 1) = c + 1 + k by omega, read_injectSparks sparks (c + 1) k, read_write,
      if_neg (by omega)]
    rfl

/-- The closed form of one update: a spark's level where there is one, elsewhere the larger of the decremented value and
what falls in. -/
theorem toNat_read_updateGrid (sparks : List (Option Nibble)) (g : Memory) {a : Nat} (ha : a < 256) :
    ((updateGrid sparks g).read a).toNat =
      sparks[a]?.join.elim (max ((g.read a).toNat - 1) (inflow g a)) (·.toNat) := by
  have hread := read_injectSparks sparks 0 a (fall (decayBottom g))
  rw [Nat.zero_add] at hread
  rw [updateGrid, hread]
  cases sparks[a]?.join with
  | none => rw [Option.elim_none, Option.elim_none, toNat_read_fall_decayBottom g ha]
  | some l => exact BitVec.toNat_setWidth_of_le (by decide)

/-- Outside the columns of the spark vector an update only decays and lets fall. -/
theorem toNat_read_updateGrid_of_no_spark {sparks : List (Option Nibble)} {a : Nat} (h : sparks[a]?.join = none)
    (g : Memory) (ha : a < 256) :
    ((updateGrid sparks g).read a).toNat = max ((g.read a).toNat - 1) (inflow g a) := by
  rw [toNat_read_updateGrid sparks g ha, h, Option.elim_none]

/-- Settles O27: the rows below the top lie outside the 16 columns of the spark vector, and into the top row nothing falls. -/
theorem automatonUpdateClosedForm : Obligations.AutomatonUpdateClosedForm := by
  intro s hl hc
  refine ⟨_, step_update hl hc, rfl, fun r c hr hr' hc => ?below, fun c hc => ?top⟩
  case below =>
    obtain ⟨r, rfl⟩ := Nat.exists_eq_succ_of_ne_zero hr.ne'
    have hnone : (drawSparks s.params.nDiscard 16 s.drawCount).1[16 * (r + 1) + c]? = none :=
      List.getElem?_eq_none (by rw [drawSparks_length]; omega)
    refine Eq.trans ?_ (congrArg _ (inflow_succ_row s.grid r c))
    exact toNat_read_updateGrid_of_no_spark (by rw [hnone]; rfl) s.grid (by omega)
  case top =>
    refine (toNat_read_updateGrid _ s.grid (by omega)).trans ?_
    rw [inflow_top s.grid hc, Nat.max_zero]
    cases (drawSparks s.params.nDiscard 16 s.drawCount).1[c]? with
    | none => rfl
    | some spark =>
      cases spark with
      | none => rfl
      | some l => rfl

/-! ### Bounds on the cells (43_automaton.md R145) -/

theorem inflow_le {g : Memory} {n : Nat} (h : ∀ i : Byte, (g.read i.toNat).toNat ≤ n) (i : Byte) :
    inflow g i.toNat ≤ n := by
  by_cases htop : 16 ≤ i.toNat
  · have habove : (i - 16).toNat = i.toNat - 16 := by bv_omega
    rw [inflow, if_pos htop, ← habove]
    exact h (i - 16)
  · rw [inflow, if_neg htop]
    exact Nat.zero_le n

theorem updateGrid_keeps_plain (sparks : List (Option Nibble)) {g : Memory}
    (h : ∀ i : Byte, (g.read i.toNat).toNat ≤ 15) (i : Byte) : ((updateGrid sparks g).read i.toNat).toNat ≤ 15 := by
  rw [toNat_read_updateGrid sparks g i.isLt]
  cases sparks[i.toNat]?.join with
  | none => exact max_le ((Nat.sub_le _ 1).trans (h i)) (inflow_le h i)
  | some l => exact Nat.le_of_lt_succ l.isLt

/-- Settles O29: a spark's level has four bits, and every other cell is bounded by the cells it comes from. -/
theorem automatonKeepsPlainCells : Obligations.AutomatonKeepsPlainCells :=
  fun _ hl hc hplain => ⟨_, step_update hl hc, updateGrid_keeps_plain _ hplain⟩

/-! ### The motion of a single drop (43_automaton.md R146) -/

/-- What the cell at row `r`, column `c` holds `j` updates after a drop of level `level` stood at row `r0`, column `c0`: the
drop reaches the row d below its start after d updates and loses one a further update. -/
def dropValue (level r0 c0 j r c : Nat) : Nat := if c = c0 ∧ r0 ≤ r ∧ r - r0 ≤ j then level - (j - (r - r0)) else 0

/-- The Grid `j` updates after the drop started. -/
def HoldsDrop (level r0 c0 j : Nat) (g : Memory) : Prop :=
  ∀ r c : Nat, r < 16 → c < 16 → (g.read (16 * r + c)).toNat = dropValue level r0 c0 j r c

section

variable {level r0 c0 j : Nat} {g : Memory}

theorem dropValue_succ_top (c : Nat) :
    dropValue level r0 c0 (j + 1) 0 c = dropValue level r0 c0 j 0 c - 1 := by
  simp only [dropValue]
  split_ifs <;> omega

theorem dropValue_succ_below (r c : Nat) :
    dropValue level r0 c0 (j + 1) (r + 1) c =
      max (dropValue level r0 c0 j (r + 1) c - 1) (dropValue level r0 c0 j r c) := by
  simp only [dropValue]
  split_ifs <;> omega

theorem HoldsDrop.update (h : HoldsDrop level r0 c0 j g) :
    HoldsDrop level r0 c0 (j + 1) (updateGrid (List.replicate 16 none) g) := by
  intro r c hr hc
  have hnone (a : Nat) : (List.replicate 16 (none : Option Nibble))[a]?.join = none := by
    rw [List.getElem?_replicate]
    split <;> rfl
  rw [toNat_read_updateGrid_of_no_spark (hnone _) g (by omega), h r c hr hc]
  cases r with
  | zero => rw [Nat.mul_zero, Nat.zero_add, inflow_top g hc, Nat.max_zero, dropValue_succ_top]
  | succ r => rw [inflow_succ_row, h r c (by omega) hc, dropValue_succ_below]

theorem HoldsDrop.iterate (h : HoldsDrop level r0 c0 0 g) (j : Nat) :
    HoldsDrop level r0 c0 j ((updateGrid (List.replicate 16 none))^[j] g) := by
  induction j with
  | zero => exact h
  | succ j ih =>
    rw [Function.iterate_succ_apply']
    exact ih.update

end

/-- Settles O30: the Grid with the one nonzero cell is the drop after 0 updates. -/
theorem singleDropMotion : Obligations.SingleDropMotion := by
  intro g level r0 c0 _ _ _ _ hstart j r c hr hc
  have hdrop : HoldsDrop level.toNat r0 c0 0 g := by
    intro r c hr hc
    rw [hstart r c hr hc, dropValue]
    split_ifs
    · rw [Nat.zero_sub, Nat.sub_zero]
    · omega
    · omega
    · rfl
  exact hdrop.iterate j r c hr hc

end Sys2Proof.Machine
end

section
/-! SUPPORT. The tick wait, the powerdown and the holds of the scheduler as steps, the pushes and the draws of a step, and the
positions each MODE can be in; and on them the settled statements about the scheduler of 44_scheduler.md. -/

namespace Sys2Proof.Machine

variable {s t u : State}

/-! ### The top of the loop and the tick wait (44_scheduler.md R161, R162) -/

theorem topStep_of_request (h : s.inputs.pwrReq = true) : s.topStep = s.powerdown := if_pos h

theorem topStep_of_no_request (h : s.inputs.pwrReq = false) : s.topStep = s.waitTick := by
  rw [State.topStep, h]
  rfl

theorem waitTick_of_no_transition (h : s.inputs.tick = s.lastTick) : s.waitTick = { s with ctl := .holdTick } := if_pos h

/-- At the top without a powerdown request, and at the hold, a step is an attempt of the tick wait (log 21). -/
theorem step_waitTick (hl : s.rom.legalSize) (hpos : s.ctl = .top ∧ s.inputs.pwrReq = false ∨ s.ctl = .holdTick) :
    step s = .next s.waitTick.environment := by
  obtain ⟨hc, hp⟩ | hc := hpos
  · rw [step_top hl hc, topStep_of_no_request hp]
  · exact step_holdTick hl hc

/-- Settles O32, by the cases of the tick wait. -/
theorem tickTransitionEntersMode : Obligations.TickTransitionEntersMode := by
  intro s hl hpos
  rw [step_waitTick hl hpos]
  refine ⟨fun htick => ?transition, fun htick => ?hold⟩
  case transition =>
    obtain ⟨hhold, -⟩ | ⟨-, hmode, hs⟩ | ⟨-, hmode, hs⟩ := waitTick_cases s
    · exact absurd hhold htick
    · simp only [hs, hmode]
    · simp only [hs, hmode]
  case hold => rw [waitTick_of_no_transition htick]

/-! ### The holds (44_scheduler.md R161, R164, R167) -/

theorem waitTick_at_hold (hc : s.ctl = .holdTick) (h : s.inputs.tick = s.lastTick) : s.waitTick = s := by
  rw [waitTick_of_no_transition h, ← hc]

theorem autoWait_succ_of_no_transition (h : s.inputs.tick = s.lastTick) (n : Nat) : s.autoWait (n + 1) = s := if_pos h

theorem waitPhase_of_no_target (h : s.inputs.phase ≠ s.params.phaseTarget) : s.waitPhase = s := if_neg h

theorem downStep_of_wake (h : s.inputs.wake = true) : s.downStep = s.coreReset := if_pos h

theorem downStep_of_no_wake (h : s.inputs.wake = false) : s.downStep = s := by
  rw [State.downStep, h]
  rfl

/-- Settles O31: at each hold the core's operation is the identity, so the step is the environment's move alone. -/
theorem holdsKeepTheCore : Obligations.HoldsKeepTheCore := by
  intro s hl hhold
  have hstep : step s = .next s.environment := by
    obtain ⟨hc, htick⟩ | ⟨⟨n, hc⟩, htick⟩ | ⟨hc, hphase⟩ | ⟨hc, hwake⟩ := hhold
    · rw [step_holdTick hl hc, waitTick_at_hold hc htick]
    · rw [step_holdAuto hl hc, autoWait_succ_of_no_transition htick]
    · rw [step_holdPhase hl hc, waitPhase_of_no_target hphase]
    · rw [step_down hl hc, downStep_of_no_wake hwake]
  exact ⟨_, hstep, rfl⟩

/-- Settles O36: the blank Grid at the top, and the two cases of WAKE while the core is down. -/
theorem powerdownAndWake : Obligations.PowerdownAndWake := by
  refine ⟨fun s hl hc hp => ?blank, fun s hl hc hw => ?parked, fun s hl hc hw => ?wakes⟩
  case blank => exact ⟨_, by rw [step_top hl hc, topStep_of_request hp], read_blankGrid, rfl⟩
  case parked => rw [step_down hl hc, downStep_of_no_wake hw]
  case wakes => rw [step_down hl hc, downStep_of_wake hw]

/-! ### Consecutive ticks (44_scheduler.md R161, D21) -/

/-- Settles O34: a step that writes LAST_TICK writes TICK, which a strict synchronizer keeps at most one ahead. -/
theorem strictTicksAreConsecutive : Obligations.StrictTicksAreConsecutive := by
  intro s t h hstrict hstep
  obtain ⟨-, -, -, -, -, hlast, -⟩ := writeOwnership s t hstep
  by_cases hkept : t.lastTick = s.lastTick
  · exact .inl hkept
  · obtain ⟨htick, -⟩ := hlast hkept
    exact htick ▸ h.tickStrict hstrict

/-! ### The pushes and the draws of a step -/

theorem pushes_pushStep (s : State) : s.pushStep.pushes = s.grid :: s.pushes := rfl

/-- A restart is recorded, and it is no push. -/
theorem pushes_restart (s : State) (c : RestartCause) : (s.restart c).pushes = s.pushes := rfl

/-- Where a step ends with the push of the Grid (44_scheduler.md R163, 43_automaton.md R140; log 1, 22). -/
theorem step_at_push (hl : s.rom.legalSize) (hc : s.ctl = .push ∨ s.ctl = .holdAuto 0) :
    step s = .next s.pushStep.environment := by
  obtain hc | hc := hc
  · exact step_push hl hc
  · rw [step_holdAuto hl hc, autoWait_zero]

/-- From `s` to `u` no Grid is pushed and no entropy is drawn. -/
structure KeepsPushesAndDraws (s u : State) : Prop where
  pushes : u.pushes = s.pushes
  drawCount : u.drawCount = s.drawCount

theorem KeepsPushesAndDraws.environment (h : KeepsPushesAndDraws s u) : KeepsPushesAndDraws s u.environment :=
  ⟨h.pushes, h.drawCount⟩

section

variable (s)

theorem waitTick_keepsPushesAndDraws : KeepsPushesAndDraws s s.waitTick := by
  obtain ⟨c, hs⟩ := waitTick_frame s
  rw [hs]
  exact ⟨rfl, rfl⟩

theorem topStep_keepsPushesAndDraws : KeepsPushesAndDraws s s.topStep := by
  rw [State.topStep]
  split
  · exact ⟨rfl, rfl⟩
  · exact waitTick_keepsPushesAndDraws s

theorem advanceEntry_keepsPushesAndDraws : KeepsPushesAndDraws s s.advanceEntry := by
  obtain ⟨w, p, c, hs, -⟩ := advanceEntry_frame s
  rw [hs]
  exact ⟨rfl, rfl⟩

theorem waitPhase_keepsPushesAndDraws : KeepsPushesAndDraws s s.waitPhase := by
  obtain ⟨c, hs⟩ := waitPhase_frame s
  rw [hs]
  exact ⟨rfl, rfl⟩

theorem autoWait_succ_keepsPushesAndDraws (n : Nat) : KeepsPushesAndDraws s (s.autoWait (n + 1)) := by
  obtain ⟨c, hs⟩ := autoWait_succ_frame s n
  rw [hs]
  exact ⟨rfl, rfl⟩

theorem downStep_keepsPushesAndDraws : KeepsPushesAndDraws s s.downStep := by
  rw [State.downStep]
  split
  · exact ⟨rfl, rfl⟩
  · exact ⟨rfl, rfl⟩

theorem exec_keepsPushesAndDraws (i : Instr) : ∃ t, exec i s = .next t ∧ KeepsPushesAndDraws s t := by
  cases i with
  | e v => exact ⟨_, exec_e s v, rfl, rfl⟩
  | s j => exact ⟨_, exec_s s j, rfl, rfl⟩
  | a => exact ⟨_, exec_a s, rfl, rfl⟩
  | p v => exact ⟨_, exec_p s v, rfl, rfl⟩
  | w v => exact ⟨_, exec_w s v, rfl, rfl⟩
  | x => exact ⟨_, exec_x s, pushes_restart s _, rfl⟩
  | nul => exact ⟨_, exec_nul s, pushes_restart s _, rfl⟩
  | invalid b => exact ⟨_, exec_invalid s b, pushes_restart s _, rfl⟩

end

/-- Away from the two push positions and the automaton's update a step neither pushes nor draws. -/
theorem step_keepsPushesAndDraws (h : step s = .next t) (hpush : ¬(s.ctl = .push ∨ s.ctl = .holdAuto 0))
    (hupdate : s.ctl ≠ .update) : KeepsPushesAndDraws s t := by
  have hl := legalSize_of_step h
  have moved {u : State} (hu : step s = .next u.environment) (hk : KeepsPushesAndDraws s u) :
      KeepsPushesAndDraws s t := by
    cases h.symm.trans hu
    exact hk.environment
  cases hc : s.ctl with
  | top => exact moved (step_top hl hc) (topStep_keepsPushesAndDraws s)
  | holdTick => exact moved (step_holdTick hl hc) (waitTick_keepsPushesAndDraws s)
  | advance => exact moved (step_advance hl hc) (advanceEntry_keepsPushesAndDraws s)
  | run =>
    obtain ⟨u, hu, hk⟩ := exec_keepsPushesAndDraws s s.fetch
    cases h.symm.trans ((step_run hl hc).trans hu)
    exact hk
  | fade => exact moved (step_fade hl hc) ⟨rfl, rfl⟩
  | push => exact absurd (.inl hc) hpush
  | holdPhase => exact moved (step_holdPhase hl hc) (waitPhase_keepsPushesAndDraws s)
  | update => exact absurd hc hupdate
  | holdAuto n =>
    cases n with
    | zero => exact absurd (.inr hc) hpush
    | succ n => exact moved (step_holdAuto hl hc) (autoWait_succ_keepsPushesAndDraws s n)
  | down => exact moved (step_down hl hc) (downStep_keepsPushesAndDraws s)

/-- Settles O35: the two push positions take the one pushing operation; the update draws but does not push, and every other
step does neither. -/
theorem pushesOnlyWhereStated : Obligations.PushesOnlyWhereStated := by
  intro s t h
  have hl := legalSize_of_step h
  by_cases hpush : s.ctl = .push ∨ s.ctl = .holdAuto 0
  · cases h.symm.trans (step_at_push hl hpush)
    exact .inl ⟨hpush, pushes_pushStep s, rfl⟩
  · refine .inr ⟨hpush, ?_⟩
    by_cases hupdate : s.ctl = .update
    · cases h.symm.trans (step_update hl hupdate)
      rfl
    · exact (step_keepsPushesAndDraws h hpush hupdate).pushes

/-- Settles O26: the fade leaves the controller at its push, and the push ends the scheduler step. -/
theorem fadeIsFollowedByPush : Obligations.FadeIsFollowedByPush := fun s hl hc =>
  ⟨s.fadeStep.environment, s.fadeStep.environment.pushStep.environment, step_fade hl hc,
    step_push (s := s.fadeStep.environment) hl rfl, pushes_pushStep s.fadeStep.environment, rfl, rfl⟩

/-! ### The positions of the two modes (44_scheduler.md R166) -/

theorem not_interp_position_of_legal {c : Ctl} {n : Nat} (h : c.legal .automaton n = true) : c ≠ .advance ∧ c ≠ .run := by
  constructor <;> rintro rfl <;> simp [Ctl.legal] at h

theorem not_automaton_position_of_legal {c : Ctl} {n : Nat} (h : c.legal .interp n = true) :
    c ≠ .holdPhase ∧ c ≠ .update ∧ ∀ k, c ≠ .holdAuto k := by
  refine ⟨?_, ?_, fun k => ?_⟩ <;> rintro rfl <;> simp [Ctl.legal] at h

/-- Settles O44: the interpreter's registers are written at the interpreter's positions only, entropy is drawn at the
automaton's update only, and the invariant keeps each mode, before and after the step, from the other's positions. -/
theorem modesDoNotMix : Obligations.ModesDoNotMix := by
  intro s t h hstep
  obtain ⟨⟨hmode, -⟩, heff, hwait, hpc, hselL, -⟩ := writeOwnership s t hstep
  refine ⟨fun hm hdown => ?automaton, fun hm => ?interp⟩
  case automaton =>
    obtain ⟨hadvance, hrun⟩ := not_interp_position_of_legal (hm ▸ h.ctlLegal)
    simp only [hadvance, hrun, hdown, false_and, or_false, imp_false, not_not] at heff hwait hpc hselL
    exact ⟨heff, hwait, hpc, hselL⟩
  case interp =>
    refine ⟨?drawCount, not_automaton_position_of_legal (hmode.trans hm ▸ (stepKeepsInv s t h hstep).ctlLegal)⟩
    obtain ⟨-, hupdate, -⟩ := not_automaton_position_of_legal (hm ▸ h.ctlLegal)
    by_cases hpush : s.ctl = .push ∨ s.ctl = .holdAuto 0
    · cases hstep.symm.trans (step_at_push h.romSize hpush)
      rfl
    · exact (step_keepsPushesAndDraws hstep hpush hupdate).drawCount

end Sys2Proof.Machine
end

section
/-! SUPPORT. Which builds have a next state; and on it the settled statement of 60_exceptions.md R180 that no step crashes. -/

namespace Sys2Proof.Machine

variable {s : State}

/-- Each controller position has an operation that answers a state, and in the run stage each instruction does, the restart
of R181 for one that decodes to INVALID. -/
theorem exists_step_of_legalSize (hl : s.rom.legalSize) : ∃ t, step s = .next t := by
  cases hc : s.ctl with
  | top => exact ⟨_, step_top hl hc⟩
  | holdTick => exact ⟨_, step_holdTick hl hc⟩
  | advance => exact ⟨_, step_advance hl hc⟩
  | run =>
    obtain ⟨t, ht, -⟩ := exec_sameRomAndLines s s.fetch
    exact ⟨t, (step_run hl hc).trans ht⟩
  | fade => exact ⟨_, step_fade hl hc⟩
  | push => exact ⟨_, step_push hl hc⟩
  | holdPhase => exact ⟨_, step_holdPhase hl hc⟩
  | update => exact ⟨_, step_update hl hc⟩
  | holdAuto n => exact ⟨_, step_holdAuto hl hc⟩
  | down => exact ⟨_, step_down hl hc⟩

/-- A build of any other size is refused before anything runs (93_implementation_defined.md I12, log 17). -/
theorem step_of_not_legalSize (hl : ¬s.rom.legalSize) : step s = .refused .programSize := if_neg hl

/-- Settles O41: the size of the Program decides alone, at every controller position. -/
theorem stepAlwaysGoesOn : Obligations.StepAlwaysGoesOn := fun _ =>
  ⟨exists_step_of_legalSize, step_of_not_legalSize⟩

end Sys2Proof.Machine
end

section
/-! SUPPORT. The steps from the tick hold to the first instruction of an advance call; and on them the settled statement of
70_reset_and_hazards.md R201. -/

namespace Sys2Proof.Machine

variable {s : State}

/-- In INTERP mode a tick transition at the hold is consumed and an advance call is entered (44_scheduler.md R161, R162). -/
theorem step_holdTick_interp (hl : s.rom.legalSize) (hm : s.mode = .interp) (hc : s.ctl = .holdTick)
    (htick : s.inputs.tick ≠ s.lastTick) :
    step s = .next ({ s with lastTick := s.inputs.tick, ctl := .advance } : State).environment := by
  obtain ⟨htransition, -⟩ := tickTransitionEntersMode s hl (.inr hc)
  rw [htransition htick, hm]

/-- With WAIT = 0 the entry of an advance call always goes on to the run stage: PC is kept while the selector is steady
(40_interpreter.md R82) and takes the start of the sequence SEL names on a switch (R81). -/
theorem step_advance_of_no_wait (hl : s.rom.legalSize) (hc : s.ctl = .advance) (hwait : s.wait = 0x0000) :
    step s = .next ({ s with
      pc := if s.inputs.sel = s.selL then s.pc else BitVec.ofNat 16 (s.rom.sequenceStart s.inputs.sel)
      selL := s.inputs.sel
      ctl := .run } : State).environment := by
  by_cases hsel : s.inputs.sel = s.selL
  · obtain ⟨-, -, -, hzero⟩ := waitStageOfAdvance s hl hc hsel
    rw [hzero (congrArg BitVec.toNat hwait), if_pos hsel, hsel]
  · rw [sequenceSwitchEndsAnyWait s hl hc hsel, if_neg hsel, ← hwait]

/-- Settles O38: the tick wait enters the advance call, and its entry, with WAIT = 0 and SEL_L = 0 since the reset, keeps
PC = 0 for SEL = 0 and is a sequence switch for any other SEL. The environment may move SEL between the two steps. -/
theorem firstInstructionAfterReset : Obligations.FirstInstructionAfterReset := by
  intro s hl hm hc htick hpc hwait hselL
  have hcall := step_holdTick_interp hl hm hc htick
  refine ⟨_, _, hcall, step_advance_of_no_wait hl rfl hwait, rfl, rfl, rfl, hwait, rfl, fun hsel => ?steady,
    fun hsel => ?switch⟩
  case steady => exact (if_pos (hsel.trans hselL.symm)).trans hpc
  case switch => exact if_neg fun h => hsel (h.trans hselL)

end Sys2Proof.Machine
end
